-- ==== Sys2Proof/Word.lean ====
section
/-! DEFINITION. The word types of the DS416 and the splitting of numbers into little-endian bytes (10 R214). -/

namespace Sys2Proof

/-- A byte of a message or of a page. -/
abbrev Byte := BitVec 8

/-- A raw sample in its 16-bit container (00 "Raw samples", 04 R90). -/
abbrev Sample := BitVec 16

/-- The message tag of a header, chosen by the sender (09 R196). -/
abbrev MsgTag := BitVec 16

/-- The `k` low bytes of `v`, least significant first (10 R214 "Integers"). -/
def leBytes : Nat → Nat → List Byte
  | 0, _ => []
  | k + 1, v => BitVec.ofNat 8 v :: leBytes k (v / 256)

/-- The number that bytes given least significant first stand for (10 R214 "Integers"). -/
def ofLeBytes : List Byte → Nat
  | [] => 0
  | b :: bs => b.toNat + 256 * ofLeBytes bs

end Sys2Proof
end

