-- ==== Sys2Proof/Names.lean ====
section
/-! DEFINITION. The names of the manual: ports, the kinds of named-value byte of Table 10.1, message kinds, codes,
statuses, and the bytes of a message, where a named value stands by its name because the manual gives it no number
(10 R214; assumption log 4). -/

namespace Sys2Proof

/-- The three station ports (00 "External connections"). -/
inductive Port where
  | p0 | p1 | p2
  deriving DecidableEq, Repr

/-- The states of an entered plate (01 R1). FREE is the absence of a record, so it is no constructor here. -/
inductive PlateState where
  | racked | called | placed | registering | staged | releasing
  deriving DecidableEq, Repr

/-- 00 "Stage coordinates", 01 R1. -/
inductive SizeClass where
  | q | h | w | l
  deriving DecidableEq, Repr

/-- 01 R1. -/
inductive Condition where
  | sound | cracked | flaking
  deriving DecidableEq, Repr

/-- 01 R1: the result of the last registration; `noResult` is NONE. -/
inductive MarginResult where
  | noResult | read | unreadable | dose
  deriving DecidableEq, Repr

/-- The two kinds of held plate notice (01 R1 "notice pending"). -/
inductive NoticeKind where
  | call | ret
  deriving DecidableEq, Repr

/-- 03 R47. -/
inductive RoundingMode where
  | nearestEven | toZero | up | down
  deriving DecidableEq, Repr

/-- 03 R47. -/
inductive MergeMode where
  | select | blend
  deriving DecidableEq, Repr

/-- 03 R48. -/
inductive ProgramState where
  | queued | waitStage | waitPlate | waitRegister | running | merging | finished
  deriving DecidableEq, Repr

/-- 03 R48, R62, R63. -/
inductive CaptureStep where
  | storeWait | unitWait | inUnit
  deriving DecidableEq, Repr

/-- The eight outcomes of a program (03 R72). -/
inductive ProgramOutcome where
  | completed | cancelled | plateLost | doseLimit | stageFault | sensorFault | noBase | startRefused
  deriving DecidableEq, Repr

/-- 07 R150. -/
inductive TileState where
  | capturing | mergeWait | merging | complete | failed
  deriving DecidableEq, Repr

/-- 07 R150, 08 R169. -/
inductive ReadKind where
  | fetch | drain
  deriving DecidableEq, Repr

/-- 08 R169. -/
inductive CloseOutcome where
  | complete | part | failed | stopped
  deriving DecidableEq, Repr

/-- The entry flag of TILE_READY (08 R192); `unheld` is NONE. -/
inductive EntryFlag where
  | unheld | heldForYou | heldForOther
  deriving DecidableEq, Repr

/-- The outcomes of REG_DONE (02 R43, R46). -/
inductive RegOutcome where
  | read | unreadable | dose | aborted
  deriving DecidableEq, Repr

/-- The outcomes of CAL_DONE (05 R115). -/
inductive CalOutcome where
  | calibrated | dark | saturated | weak | sensor | stage | interrupted
  deriving DecidableEq, Repr

/-- 09 R195. -/
inductive LinkState where
  | down | up
  deriving DecidableEq, Repr

/-- 04 R79. -/
inductive UnitState where
  | idle | moving | exposing | readout
  deriving DecidableEq, Repr

/-- 05 R109. -/
inductive CalUnitState where
  | idle | darkFrame | lightFrame
  deriving DecidableEq, Repr

/-- The errors of POST_ERROR (09 R200, R201). -/
inductive PostError where
  | unknownPlate | stageConflict | notOnStage | malformed
  deriving DecidableEq, Repr

/-- The seven message kinds (09 R196). -/
inductive Kind where
  | req | post | reply | notice | line | preview | close
  deriving DecidableEq, Repr

/-- The codes of a header: requests, posts, notices (09 R200, R202). -/
inductive Code where
  | plateEnter | readPlate | raiseBudget | retirePlate | keep | unkeep | releasePlate | register
  | submitProgram | cancelProgram | calibrate | discardTile | fetchTile | openDrain | stopRead | setWindow
  | readSettings | writeSettings | setPreview | queryStatus
  | platePlaced | plateRemoved | annotate | portReset
  | postError | callPlate | returnPlate | callWithdrawn | regDone | calDone | programDone | tileReady
  deriving DecidableEq, Repr

/-- The reply statuses the chapters name (00 "Names"). -/
inductive Status where
  | ok | accepted | granted | held | pending | malformed | retryLater
  | tableFull | duplicate | badField | unknownPlate | busy | onStage | called | programsPending
  | notOnStage | releasing | noPlate | queueFull | noCal | badBracket | badTile | badExposure
  | needsCarrier | doseLimit | unknownProgram | stageOccupied | unknownTile | window | failed | noRead
  deriving DecidableEq, Repr

/-- A value that a named-value byte (or the two bytes of a status) can carry (10 Table 10.1). -/
inductive Name where
  | kind (v : Kind) | code (v : Code)
  | statusLow (v : Status) | statusHigh (v : Status)
  | plateState (v : Option PlateState)
  | sizeClass (v : SizeClass) | condition (v : Condition) | carrier (v : Bool)
  | marginResult (v : MarginResult) | noticePending (v : Option NoticeKind)
  | rounding (v : RoundingMode) | mergeMode (v : MergeMode) | marking (v : Bool) | baseSubtraction (v : Bool)
  | programState (v : ProgramState) | captureStep (v : CaptureStep) | programOutcome (v : ProgramOutcome)
  | tileState (v : TileState) | readKind (v : ReadKind) | closeOutcome (v : CloseOutcome)
  | entryFlag (v : EntryFlag) | regOutcome (v : RegOutcome) | calOutcome (v : CalOutcome)
  | link (v : LinkState) | unit (v : UnitState) | calUnit (v : CalUnitState) | postError (v : PostError)
  deriving DecidableEq, Repr

/-- A byte of a message as the model carries it: by number; by name, where it is the byte value of a named value; or
`unnamed`, a byte whose value names none of the values of the place it stands in (10 R214, R215; log 4). -/
inductive Octet where
  | byte (b : Byte)
  | name (n : Name)
  | unnamed
  deriving DecidableEq, Repr

/-- A frame on a station link: all its bytes in the order of their offsets, header, payload and the four bytes of the
check (09 R196, 10.2). -/
structure Frame where
  bytes : List Octet
  deriving DecidableEq, Repr

/-- A tile id: the pair of program tag and tile index (00 "Ports, slots, tags"). -/
structure TileId where
  tag : Nat
  index : Nat
  deriving DecidableEq, Repr

end Sys2Proof
end

