-- ==== Sys2Proof/Syntax.lean ====
section
/-! DEFINITION. The commands of the DS416: one constructor for each row of spec/opcode_table.json. A row that is the
taking of a message has the port as its operand; the message itself stands at the head of that port's inbound queue
(09 R199; assumption log 2). -/

namespace Sys2Proof

inductive Instr where
  /-- RESET: the reset input or power-on (01 R30 and the reset rule of each chapter). -/
  | reset
  /-- LOCK: the receiver of `p` locks (09 R195, R207). -/
  | lock (p : Port)
  /-- LOSS_OF_LOCK: the receiver of `p` loses lock (09 R205). -/
  | lossOfLock (p : Port)
  /-- MESSAGE_ARRIVAL: the receiver of `p` delivers a whole frame (09 R197, R198). -/
  | messageArrival (p : Port) (frame : Frame)
  /-- MALFORMED: `p` takes a message that is malformed or of an outbound kind (09 R201). -/
  | malformed (p : Port)
  /-- MESSAGE_ACCEPTED: the link of `p` accepts the last byte of what it is sending, not a LINE (09 R202, R198). -/
  | messageAccepted (p : Port)
  /-- LINE_DELIVERED: the link of `p` accepts a LINE of a stream entry (08 R170). -/
  | lineDelivered (p : Port)
  | plateEnter (p : Port)
  | readPlate (p : Port)
  | annotate (p : Port)
  | raiseBudget (p : Port)
  | retirePlate (p : Port)
  | platePlaced (p : Port)
  | plateRemoved (p : Port)
  | keep (p : Port)
  | unkeep (p : Port)
  | releasePlate (p : Port)
  | register (p : Port)
  | submitProgram (p : Port)
  | cancelProgram (p : Port)
  | calibrate (p : Port)
  | discardTile (p : Port)
  | fetchTile (p : Port)
  | openDrain (p : Port)
  | stopRead (p : Port)
  | setWindow (p : Port)
  | readSettings (p : Port)
  | writeSettings (p : Port)
  | setPreview (p : Port)
  | queryStatus (p : Port)
  | portReset (p : Port)
  /-- PENDING_NOTICE_ISSUE: the first pending plate notice of `p` is placed (02 R38). -/
  | pendingNoticeIssue (p : Port)
  /-- ALLOCATION_GRANT: the waiting allocation request is granted (07 R153, R154). -/
  | allocationGrant
  /-- WORK_HANDOVER: a waiting client hands its work to the idle exposure unit (04 R80). -/
  | workHandover
  /-- DONE_ANSWER, MOVING_ANSWER, BUSY_ANSWER, FAULT_ANSWER: answers on the instrument link (04 R84 to R87). -/
  | doneAnswer (seq : BitVec 8)
  | movingAnswer (seq : BitVec 8)
  | busyAnswer (seq : BitVec 8)
  | faultAnswer (seq : BitVec 8)
  | answerTimerExpiry
  | busyWaitExpiry
  | lampTimerExpiry
  /-- LINE: a raw line from the camera head (04 R90): take number, line number, count of samples, the samples, check. -/
  | line (take : BitVec 8) (number : BitVec 16) (count : BitVec 16) (samples : List Sample) (check : BitVec 16)
  | sensorError (take : BitVec 8)
  | lineTimerExpiry
  | measurementEnd
  /-- LINE_EVENT: the merge of the next line of the head tile ends (06 R124). -/
  | lineEvent
  | heldProgramDone (p : Port)
  | waitingBurst (p : Port)
  | failedClosePlace (p : Port)
  /-- ENTRY_READY: a WAITING entry for the COMPLETE tile becomes READY (08 R181). -/
  | entryReady (tile : TileId)
  /-- ENTRY_EXPIRY: the timer of the tile's READY or FAILED entry runs out (08 R180). -/
  | entryExpiry (tile : TileId)
  deriving DecidableEq, Repr

end Sys2Proof
end

