-- ==== Sys2Proof/Machine/State.lean ====
section
/-! DEFINITION. The state of the DS416 as plain data, block by block, and the state after reset. -/

namespace Sys2Proof.Machine

/-! ### Plate table (01) -/

/-- A set of ports (01 R1 "keep set"; 10 R214 "port set byte"). -/
structure PortSet where
  p0 : Bool
  p1 : Bool
  p2 : Bool
  deriving DecidableEq, Repr

/-- One entry of a plate's reservation list (01 R1). -/
structure Reservation where
  tag : Nat
  remaining : Nat
  deriving DecidableEq, Repr

/-- A plate notice that is due and not yet sent (01 R1, 02 R38), with what the staging unit keeps for it (02 R31). -/
inductive PendingNotice where
  | call (tag : Nat)
  | ret (wanted : Nat)
  deriving DecidableEq, Repr

/-- The record of a plate that is not FREE (01 R1). The reserved total V is the sum of `reservations` (R9). -/
structure Plate where
  state : PlateState
  accession : List Byte
  sizeClass : SizeClass
  condition : Condition
  carrier : Bool
  budget : Nat
  spent : Nat
  reservations : List Reservation
  baseFog : Option Nat
  marginResult : MarginResult
  note : List Byte
  handlerPort : Port
  keeps : PortSet
  programCount : Nat
  noticePending : Option PendingNotice
  deriving DecidableEq, Repr

/-! ### Settings store (09 R209) -/

structure Settings where
  discardTime : Nat
  retryLimit : Nat
  autoRegistration : Bool
  marginStep : Int
  marginSaturation : Nat
  marginFloor : Nat
  marginOffset : Nat
  deriving DecidableEq, Repr

/-! ### Staging unit (02 R31) -/

inductive RegPhase where
  | waitUnit | moving | exposing | readout | measuring
  deriving DecidableEq, Repr

/-- A registration in flight. `buffer` is the margin buffer: the lines of the current margin exposure, line 0 first. -/
structure Registration where
  slot : Nat
  requester : Option Port
  phase : RegPhase
  step : Int
  saturation : Nat
  floor : Nat
  offset : Nat
  time : Nat
  cost : Nat
  doseCharged : Nat
  retakes : Nat
  buffer : List (List Sample)
  deriving DecidableEq, Repr

/-! ### Program queue and capture controller (03) -/

/-- A tile descriptor (03 R47). -/
structure TileDesc where
  x : Nat
  y : Nat
  c0 : Nat
  width : Nat
  height : Nat
  bracket : Nat
  deriving DecidableEq, Repr

/-- The content of an accepted submission, held unchanged (03 R47, R48). A bracket set is the list of its steps. -/
structure Submission where
  slot : Nat
  rounding : RoundingMode
  mergeMode : MergeMode
  marking : Bool
  baseSubtraction : Bool
  sat : Nat
  floor : Nat
  brackets : List (List Int)
  tiles : List TileDesc
  deriving DecidableEq, Repr

/-- A program record (03 R48). -/
structure Program where
  tag : Nat
  port : Port
  state : ProgramState
  content : Submission
  estimate : Nat
  captureStep : Option CaptureStep
  nextTile : Nat
  tilesInMerge : Nat
  tilesCompleted : Nat
  outcome : Option ProgramOutcome
  failingTile : Option Nat
  refusedTile : Option Nat
  doseCharged : Nat
  doseReleased : Option Nat
  generation : Option Nat
  baseFogUsed : Option Nat
  deriving DecidableEq, Repr

/-! ### Exposure unit (04) -/

/-- The work kinds of R79; TILE names its tile. -/
inductive WorkKind where
  | tile (id : TileId) | margin | calDark | calLight
  deriving DecidableEq, Repr

/-- One exposure of the work: exposure time and cost (04 R79, R81, R82); `step` is absent for a fixed time. Its
destination is fixed by the work kind and its place in the list (R80, R93). -/
structure Exposure where
  step : Option Int
  time : Nat
  cost : Nat
  deriving DecidableEq, Repr

/-- The exposure context (04 R79). -/
structure ExposureContext where
  kind : WorkKind
  x : Nat
  y : Nat
  gentle : Bool
  c0 : Nat
  width : Nat
  height : Nat
  exposures : List Exposure
  current : Nat
  retakes : Nat
  level : Nat
  attempt : Nat
  nextLine : Nat
  disposal : Bool
  doseCharged : Nat
  deriving DecidableEq, Repr

/-- The timer of the exposure unit that runs, with the value it was started at: the answer timer and the BUSY wait in
ms (04 R84, R85), the lamp timer in µs (R88), the line timer in ms (R92). -/
inductive UnitTimer where
  | stopped
  | answer (ms : Nat)
  | busyWait (ms : Nat)
  | lamp (us : Nat)
  | line (ms : Nat)
  deriving DecidableEq, Repr

structure ExposureUnit where
  state : UnitState
  context : Option ExposureContext
  moveSeq : BitVec 8
  takeNumber : BitVec 8
  timer : UnitTimer
  deriving DecidableEq, Repr

/-- The lamp drive outputs (04 R83). -/
structure Lamp where
  level : Nat
  gateOpen : Bool
  deriving DecidableEq, Repr

/-! ### Calibration unit (05) -/

/-- The fields of the calibration record that are absent while the generation is 0 (05 R106). -/
structure CalParams where
  tRef : Nat
  level : Nat
  width : Nat
  dark : Nat
  table : List Nat
  deriving DecidableEq, Repr

structure CalRecord where
  generation : Nat
  params : Option CalParams
  deriving DecidableEq, Repr

/-- The two frames of a calibration in flight; no context is IDLE (05 R109). -/
inductive CalPhase where
  | dark | light
  deriving DecidableEq, Repr

/-- The calibration context (05 R109). -/
structure CalContext where
  phase : CalPhase
  port : Port
  tRef : Nat
  level : Nat
  width : Nat
  darkSum : Nat
  dark : Option Nat
  columnSums : List Nat
  saturation : Option Nat
  deriving DecidableEq, Repr

/-! ### Tile store (07) and statistics (06 R141) -/

structure TileStats where
  normalCount : Nat
  underCount : Nat
  overCount : Nat
  gapCount : Nat
  negCount : Nat
  ceilCount : Nat
  least : Option Nat
  greatest : Option Nat
  dose : Nat
  generation : Option Nat
  rounding : Option RoundingMode
  mergeMode : Option MergeMode
  baseFog : Option Nat
  deriving DecidableEq, Repr

/-- A tile entry (07 R150). A chain is its ordered list of pages, empty when the tile holds none (R148); `writer` says
that the merge engine is joined (R156). -/
structure TileEntry where
  id : TileId
  slot : Nat
  accession : List Byte
  width : Nat
  height : Nat
  n : Nat
  state : TileState
  fill : Nat
  output : List Nat
  raws : List (List Nat)
  writer : Bool
  reader : Option (Port × ReadKind)
  consume : Bool
  stats : Option TileStats
  deriving DecidableEq, Repr

/-- The allocation request of the capture controller (07 R152). -/
structure AllocRequest where
  id : TileId
  slot : Nat
  accession : List Byte
  width : Nat
  height : Nat
  n : Nat
  deriving DecidableEq, Repr

/-! ### Merge engine (06 R123) -/

/-- The merge context. The chains of R123 are those of the tile's entry; DARK and CAL_c are read at each sample. -/
structure MergeContext where
  id : TileId
  nextLine : Nat
  width : Nat
  height : Nat
  c0 : Nat
  bracket : Nat
  steps : List Int
  sat : Nat
  floor : Nat
  rounding : RoundingMode
  mergeMode : MergeMode
  marking : Bool
  baseSubtraction : Bool
  baseFog : Option Nat
  generation : Option Nat
  deriving DecidableEq, Repr

/-! ### Fetch and drain unit (08) -/

inductive EntryState where
  | waiting | ready | failed
  deriving DecidableEq, Repr

/-- An entry of the pending fetch table (08 R176); `timer` holds the value it was started at while it runs. -/
structure PendingEntry where
  port : Port
  tile : TileId
  slot : Nat
  state : EntryState
  timer : Option Nat
  deriving DecidableEq, Repr

/-- A closing record (08 R172). -/
structure CloseRecord where
  tile : TileId
  slot : Nat
  accession : List Byte
  outcome : CloseOutcome
  first : Nat
  delivered : Nat
  stats : Option TileStats
  deriving DecidableEq, Repr

inductive ReadMode where
  | count | freeRun
  deriving DecidableEq, Repr

/-- An open read (08 R169). `tag` is the message tag of the request that opened it (09 R196). A read whose outcome is
FAILED and whose closing record waits for a free entry keeps that record in `waitingClose` (R189). -/
structure Read where
  tile : TileId
  tag : MsgTag
  kind : ReadKind
  consume : Bool
  first : Nat
  endLine : Nat
  mode : ReadMode
  threshold : Option Nat
  position : Nat
  delivered : Nat
  outcome : Option CloseOutcome
  waitingClose : Option CloseRecord
  deriving DecidableEq, Repr

/-! ### Station ports (09) and the content of outbound messages (10) -/

/-- A checked inbound message (09 R196 to R198): header fields and payload. -/
structure Message where
  kind : Octet
  code : Octet
  tag : MsgTag
  status : BitVec 16
  payload : List Octet
  deriving DecidableEq, Repr

/-- A refusal of the retry list (09 R198). -/
structure RetryRefusal where
  tag : MsgTag
  code : Octet
  kind : Octet
  deriving DecidableEq, Repr

/-- The status report of QUERY_STATUS (09 R212, 10.9). -/
structure StatusReport where
  calState : CalUnitState
  generation : Nat
  cal : Option CalParams
  stage : Option (Nat × Option PlateState)
  indicator : Bool
  unitState : UnitState
  mergeDepth : Nat
  freePages : Nat
  entriesInUse : Nat
  pendingEntries : Nat
  link : LinkState
  windowBase : Nat
  windowLimit : Nat
  previewFlag : Bool
  upCount : BitVec 16
  inboundDepth : Nat
  outboundInUse : Nat
  read : Option Read
  ownPending : Nat
  ownFinished : Nat
  ownNotices : Nat
  programs : List (Nat × ProgramState)
  running : Option (Option CaptureStep × Nat)
  deriving DecidableEq, Repr

/-- What an outbound message carries (10.5 to 10.9). -/
inductive Body where
  | empty
  | slot (slot : Nat)
  | plate (slot : Nat) (record : Plate)
  | budget (budget spent reserved remainder : Nat)
  | keeps (keeps : PortSet)
  | held (keeps : PortSet) (count : Nat) (registering : Bool)
  | programAccepted (tag estimate : Nat)
  | programOutcome (tag : Nat) (outcome : ProgramOutcome)
  | calibration (tRef level width : Nat)
  | pages (count : Nat)
  | fetchAccepted (tile : TileId) (width height : Nat)
  | tileState (state : TileState)
  | drainAccepted (tile : TileId) (width height : Nat) (state : TileState) (threshold count start : Nat)
  | window (base limit : Nat)
  | flag (on : Bool)
  | settings (record : Settings)
  | status (report : StatusReport)
  | number (value : Nat)
  | dose (estimate remainder : Nat)
  | busy (state : Option TileState) (port : Option Port)
  | postError (error : PostError) (code : Octet) (slot : Nat)
  | callPlate (slot : Nat) (size : SizeClass) (condition : Condition) (carrier : Bool) (accession : List Byte) (tag : Nat)
  | returnPlate (slot : Nat) (accession : List Byte) (wanted : Nat)
  | callWithdrawn (slot : Nat) (accession : List Byte)
  | regDone (slot : Nat) (accession : List Byte) (outcome : RegOutcome) (baseFog : Option Nat) (normal dose : Nat)
  | calDone (outcome : CalOutcome) (generation tRef level width : Nat) (dark column w : Option Nat)
      (least : Option (Nat × Nat))
  | tileReady (tile : TileId) (slot : Nat) (accession : List Byte) (width height : Nat) (flag : EntryFlag) (discard : Nat)
  | programDone (tag slot : Nat) (outcome : Option ProgramOutcome) (completed residue : Nat)
      (failing : Option (Nat × Nat)) (refused : Option Nat) (charged released : Nat) (generation : Option Nat)
  | preview (tile : TileId) (slot line : Nat) (codes : List (BitVec 16))
  | close (record : CloseRecord)
  | line (tile : TileId) (line : Nat) (codes : List (BitVec 16))
  deriving DecidableEq, Repr

/-- An outbound message (09 R196, R202): kind, code byte, tag, status and content. -/
structure OutMessage where
  kind : Kind
  code : Octet
  tag : MsgTag
  status : Option Status
  body : Body
  deriving DecidableEq, Repr

/-- A stream entry (08 R170): the opening reply if unsent, a run of lines, the closing record once attached. `isOpen`
says that the entry belongs to the port's open read. -/
structure StreamEntry where
  reply : Option OutMessage
  tile : TileId
  tag : MsgTag
  first : Nat
  count : Nat
  close : Option OutMessage
  isOpen : Bool
  deriving DecidableEq, Repr

/-- An entry of the outbound list (09 R202). -/
inductive OutEntry where
  | message (m : OutMessage)
  | stream (e : StreamEntry)
  deriving DecidableEq, Repr

/-- What the link of a port is in the middle of sending (09 R195, R198; log 13): nothing, the oldest RETRY_LATER, or
the first message of the entry at the front of the outbound list. -/
inductive Sending where
  | idle | retryLater | entry
  deriving DecidableEq, Repr

/-- A station port: link, queues and lists (09), and the fetch and drain unit's window and read for it (08). -/
@[ext] structure PortState where
  link : LinkState
  upCount : BitVec 16
  inbound : List Message
  retry : List RetryRefusal
  outbound : List OutEntry
  sending : Sending
  windowBase : Nat
  windowLimit : Nat
  previewFlag : Bool
  read : Option Read
  deriving DecidableEq, Repr

/-- The three ports (09: "P0, P1 and P2 are identical"). -/
structure Ports where
  p0 : PortState
  p1 : PortState
  p2 : PortState
  deriving DecidableEq, Repr

/-! ### What leaves the part -/

/-- What the part sends in a step (log 14): a frame on a station link, or a message on the instrument or sensor link. -/
inductive Emission where
  | frame (p : Port) (f : Frame)
  | move (seq : BitVec 8) (x y : Nat) (gentle : Bool)
  | start (take : BitVec 8) (c0 width height : Nat)
  | stop (take : BitVec 8)
  deriving DecidableEq, Repr

/-! ### The machine -/

/-- The state of the DS416. The last two fields are the model's own (logs 1 and 14). -/
@[ext]
structure State where
  plates : Vector (Option Plate) 32
  occupant : Option Nat
  indicator : Bool
  registration : Option Registration
  programs : List Program
  tagCounter : Nat
  unit : ExposureUnit
  lamp : Lamp
  cal : CalRecord
  calContext : Option CalContext
  mergeQueue : List TileId
  mergeContext : Option MergeContext
  freePages : List Nat
  directory : List TileEntry
  allocWaiting : Option AllocRequest
  pages : List Host.Cell
  entries : List PendingEntry
  ports : Ports
  settings : Settings
  sent : List Emission
  pending : List Instr
  deriving DecidableEq, Repr

/-- The reasons the part stops. The manual gives the part no machine fault: every error it names is a reply, a notice
or an outcome, and each of them is a next state (INVENTORY "Faults"). So there is none. -/
inductive Fault where
  deriving DecidableEq, Repr

/-- The reasons a command is refused. -/
inductive Refusal where
  /-- Raised by `exec` for a command that has no meaning yet; safe, because the run stops there. -/
  | notModelled (mnemonic : String)
  deriving DecidableEq, Repr

/-- The settings defaults of 09 R209. -/
def Settings.default : Settings :=
  { discardTime := 500, retryLimit := 64, autoRegistration := true, marginStep := 0
    marginSaturation := 16000, marginFloor := 64, marginOffset := 0 }

/-- A port after reset (09 R213, 08 R194). -/
def PortState.reset : PortState :=
  { link := .down, upCount := 0, inbound := [], retry := [], outbound := [], sending := .idle
    windowBase := 0, windowLimit := 31, previewFlag := false, read := none }

/-- The exposure unit after reset (04 R79, R103). -/
def ExposureUnit.reset : ExposureUnit :=
  { state := .idle, context := none, moveSeq := 0, takeNumber := 0, timer := .stopped }

/-- The part after reset: 01 R30, 02 R31, 03 R78, 04 R103, 05 R119, 06 R128, 07 R166, 08 R194, 09 R213. The bytes of
the pages are listed nowhere (log 8). -/
def State.reset : State :=
  { plates := Vector.replicate 32 none
    occupant := none
    indicator := false
    registration := none
    programs := []
    tagCounter := 1
    unit := ExposureUnit.reset
    lamp := { level := 0, gateOpen := false }
    cal := { generation := 0, params := none }
    calContext := none
    mergeQueue := []
    mergeContext := none
    freePages := List.range 4096
    directory := []
    allocWaiting := none
    pages := []
    entries := []
    ports := { p0 := PortState.reset, p1 := PortState.reset, p2 := PortState.reset }
    settings := Settings.default
    sent := []
    pending := [] }

end Sys2Proof.Machine
end

