-- ==== Sys2Proof/Machine/Density.lean ====
section
/-! DEFINITION. Exposure times and costs (04 R81, R82), LOG (06 R130) and the density arithmetic (06 R129 to R140). -/

namespace Sys2Proof.Machine

/-- The multipliers M[j] of R81. -/
def multiplier : Nat → Nat
  | 0 => 4096
  | 1 => 4467
  | 2 => 4871
  | 3 => 5312
  | 4 => 5793
  | 5 => 6317
  | 6 => 6889
  | _ => 7512

/-- The exposure time in µs of step `e` at reference time `tRef` (04 R81); the quotient is rounded to the nearest
integer, an exact half upward. -/
def exposureTime (tRef : Nat) (e : Int) : Nat :=
  let m := multiplier (e % 8).toNat
  if 0 ≤ e / 8 then (tRef * m * 2 ^ (e / 8).toNat + 2048) / 4096
  else
    let d := 4096 * 2 ^ (-(e / 8)).toNat
    (tRef * m + d / 2) / d

/-- The legal exposure times (04 R81). -/
def legalTime (t : Nat) : Bool := decide (20 ≤ t) && decide (t ≤ 30000000)

/-- The dose cost in DU of an exposure: the ceiling of level * t / 1000 (04 R82). -/
def exposureCost (level t : Nat) : Nat := (level * t + 999) / 1000

/-- The exposure of a step under a calibration (04 R80). -/
def stepExposure (c : CalParams) (e : Int) : Exposure :=
  { step := some e, time := exposureTime c.tRef e, cost := exposureCost c.level (exposureTime c.tRef e) }

/-- The greatest number with the bits of `n` and `k` bits below them whose double power of two is at most 2 * `x`. -/
def logBits (x : Nat) : Nat → Nat → Nat
  | 0, n => n
  | k + 1, n => logBits x k (if 2 ^ (2 * (n + 2 ^ k)) ≤ 2 * x then n + 2 ^ k else n)

/-- LOG(v): the integer nearest to 1024 * log2 v (06 R130). It is the n with 2^(2n-1) ≤ v^2048 < 2^(2n+1), found bit by
bit (log 21). -/
def logOf (v : Nat) : Nat := logBits (v ^ 2048) 15 0

/-- The classes of a sample (06 R132, R139). -/
inductive SampleClass where
  | normal | under | above | gap | neg | ceil
  deriving DecidableEq, Repr

/-- The states of an exposure at a sample (06 R131). -/
inductive ExposureState where
  | saturated | valid | belowFloor
  deriving DecidableEq, Repr

/-- The parameters of the density arithmetic that are the same for a whole line (06 R129). `fog` is base_fog when base
subtraction is on. -/
structure DensityParams where
  steps : List Int
  dark : Nat
  sat : Nat
  floor : Nat
  rounding : RoundingMode
  mergeMode : MergeMode
  marking : Bool
  fog : Option Nat
  deriving DecidableEq, Repr

/-- One exposure seen at a sample: step and raw value. -/
abbrev Seen := Int × Nat

/-- The net value (06 R131). -/
def netOf (dark raw : Nat) : Nat := raw - dark

/-- The state of an exposure at a sample (06 R131). -/
def exposureStateOf (P : DensityParams) (raw : Nat) : ExposureState :=
  if P.sat ≤ raw then .saturated
  else if P.floor ≤ netOf P.dark raw then .valid
  else .belowFloor

/-- The class given by the second stage (06 R132). -/
def classOf (states : List ExposureState) : SampleClass :=
  if states.all (fun t => decide (t = .saturated)) then .under
  else if states.all (fun t => decide (t = .belowFloor)) then .above
  else if states.any (fun t => decide (t = .valid)) then .normal
  else .gap

/-- The log transmittance L of a step and a net value (06 R133, R135, R136). -/
def logTransmittance (cal : Nat) (e : Int) (net : Nat) : Int := (cal : Int) + 128 * e - (logOf net : Int)

/-- The rational N/Dn rounded to an integer (06 R138); `d` is positive. -/
def roundQuotient (mode : RoundingMode) (n d : Int) : Int :=
  match mode with
  | .nearestEven =>
    if 2 * (n % d) < d then n / d
    else if d < 2 * (n % d) then n / d + 1
    else if (n / d) % 2 = 0 then n / d
    else n / d + 1
  | .toZero => Int.tdiv n d
  | .up => -((-n) / d)
  | .down => n / d

/-- The last two elements of a list, the last first. -/
def lastTwo {α : Type} (l : List α) : Option α × Option α :=
  match l.reverse with
  | [] => (none, none)
  | [a] => (some a, none)
  | a :: b :: _ => (some a, some b)

/-- The numerator N and the denominator Dn of the third stage (06 R133 to R136). The steps ascend, so the exposure with
the largest step is the last. -/
def thirdStage (P : DensityParams) (cal : Nat) (c : SampleClass) (seen : List Seen) : Int × Int :=
  match c with
  | .above => (logTransmittance cal (P.steps.getLast?.getD 0) P.floor * 12041, 4096)
  | .gap =>
    match (seen.filter (fun x => decide (exposureStateOf P x.2 ≠ .saturated))).getLast? with
    | some g => (logTransmittance cal g.1 (max 1 (netOf P.dark g.2)) * 12041, 4096)
    | none => (0, 4096)
  | _ =>
    match lastTwo (seen.filter (fun x => decide (exposureStateOf P x.2 = .valid))), P.mergeMode with
    | (some a, some b), .blend =>
      ((logTransmittance cal a.1 (netOf P.dark a.2) + logTransmittance cal b.1 (netOf P.dark b.2)) * 12041, 8192)
    | (some a, _), _ => (logTransmittance cal a.1 (netOf P.dark a.2) * 12041, 4096)
    | (none, _), _ => (0, 4096)

/-- The fifth stage (06 R139): base subtraction, the clamps, and the final class. -/
def fifthStage (P : DensityParams) (c : SampleClass) (v : Int) : SampleClass × Nat :=
  let v' := v - ((P.fog.getD 0 : Nat) : Int)
  if v' < 0 then (if c = .normal then .neg else c, 0)
  else if 65000 < v' then (if c = .normal then .ceil else c, 65000)
  else (c, v'.toNat)

/-- The class and final code of one sample (06 R129 to R140): `raws` are the raw values of exposures 1 to n and `cal` is
CAL_c of its sensor column. -/
def density (P : DensityParams) (cal : Nat) (raws : List Nat) : SampleClass × Nat :=
  match classOf (raws.map (exposureStateOf P)) with
  | .under => (.under, if P.marking then 65534 else 0)
  | c =>
    if c = .above ∧ P.marking = true then (.above, 65535)
    else
      let q := thirdStage P cal c (P.steps.zip raws)
      fifthStage P c (roundQuotient P.rounding q.1 q.2)

end Sys2Proof.Machine
end

