-- ==== Sys2Proof/Machine/Flags.lean ====
section
/-! DEFINITION. The conditions the blocks test: stage states, holds, the indicator level, counted programs, windows,
free outbound entries, and the dose sums of a plate. -/

namespace Sys2Proof

/-- The stage states (01 section 1.2). -/
def PlateState.onStage : PlateState → Bool
  | .placed | .registering | .staged | .releasing => true
  | .racked | .called => false

/-- The counted states of a program (01 R7, 03 R58). -/
def ProgramState.counted : ProgramState → Bool
  | .queued | .waitStage | .waitPlate | .waitRegister | .running => true
  | .merging | .finished => false

/-- The states in which a program waits for its start (03 R69). -/
def ProgramState.waiting : ProgramState → Bool
  | .queued | .waitStage | .waitPlate | .waitRegister => true
  | .running | .merging | .finished => false

namespace Machine

/-- Membership of a port in a set. -/
def PortSet.has (k : PortSet) : Port → Bool
  | .p0 => k.p0
  | .p1 => k.p1
  | .p2 => k.p2

/-- The set with port `p` in it (`b = true`) or out of it. -/
def PortSet.put (k : PortSet) (p : Port) (b : Bool) : PortSet :=
  match p with
  | .p0 => { k with p0 := b }
  | .p1 => { k with p1 := b }
  | .p2 => { k with p2 := b }

def PortSet.none : PortSet := { p0 := false, p1 := false, p2 := false }

def PortSet.nonempty (k : PortSet) : Bool := k.p0 || k.p1 || k.p2

/-- A plate has a hold (01 R5). -/
def Plate.hasHold (pl : Plate) : Bool :=
  pl.state.onStage && (pl.keeps.nonempty || decide (0 < pl.programCount) || decide (pl.state = .registering))

/-- Whether a plate table slot holds a plate in a stage state. -/
def slotOnStage : Option Plate → Bool
  | some pl => pl.state.onStage
  | none => false

/-- Whether a plate table slot holds a plate with a hold. -/
def slotHasHold : Option Plate → Bool
  | some pl => pl.hasHold
  | none => false

/-- The slot whose record is in a stage state (01 R4). -/
def stageSlot (plates : Vector (Option Plate) 32) : Option Nat :=
  plates.toList.findIdx? slotOnStage

/-- The level of the do-not-remove indicator: lit exactly when a plate in a stage state has a hold (01 R6). -/
def indicatorLevel (plates : Vector (Option Plate) 32) : Bool :=
  plates.toList.any slotHasHold

/-- The reserved total V: the sum of the remaining amounts in the reservation list (01 R9). -/
def Plate.reserved (pl : Plate) : Nat := (pl.reservations.map (·.remaining)).sum

/-- The unreserved remainder B - S - V (01 R1). -/
def Plate.remainder (pl : Plate) : Nat := pl.budget - pl.spent - pl.reserved

/-- The remaining amount of a program's reservation entry (01 R11, R12). -/
def Plate.remainingOf (pl : Plate) (tag : Nat) : Nat :=
  match pl.reservations.find? (fun r => decide (r.tag = tag)) with
  | some r => r.remaining
  | none => 0

/-- The outbound list has a free entry (09 R202). -/
def PortState.hasFree (q : PortState) : Bool := decide (q.outbound.length < 64)

/-- The port can take a notice: its link is UP and its list has a free entry (02 R38, 03 R75). -/
def PortState.canTake (q : PortState) : Bool := decide (q.link = .up) && q.hasFree

/-- The port may take its next inbound message (09 R199, R206). -/
def PortState.mayTake (q : PortState) : Bool := decide (q.link = .down) || q.hasFree

/-- The port's plate window covers a slot (08 R167). -/
def PortState.covers (q : PortState) (slot : Nat) : Bool :=
  decide (q.windowBase ≤ slot) && decide (slot ≤ q.windowLimit)

/-- The stream entry on the list that belongs to the port's open read (08 R169, R170). -/
def OutEntry.isOpenStream : OutEntry → Bool
  | .stream e => e.isOpen
  | .message _ => false

/-- The open read's stream entry stands on the list (08 R169 "stream entry"). -/
def PortState.streamStands (q : PortState) : Bool := q.outbound.any OutEntry.isOpenStream

end Machine
end Sys2Proof
end

