-- ==== Sys2Proof/Machine/Ops.lean ====
section
/-! DEFINITION. The named operations over the state that every block shares: ports and their lists, plate records,
program records, tile entries, pending entries, emissions. -/

namespace Sys2Proof.Machine

/-! ### Ports -/

def State.port (s : State) : Port → PortState
  | .p0 => s.ports.p0
  | .p1 => s.ports.p1
  | .p2 => s.ports.p2

def State.setPort (s : State) (p : Port) (q : PortState) : State :=
  match p with
  | .p0 => { s with ports := { s.ports with p0 := q } }
  | .p1 => { s with ports := { s.ports with p1 := q } }
  | .p2 => { s with ports := { s.ports with p2 := q } }

/-- At a boundary between two messages the port of an UP link begins the next: the oldest refusal first, else the
entry at the front of the outbound list (09 R198, R202). -/
def PortState.beginSending (q : PortState) : PortState :=
  if q.link = .up ∧ q.sending = .idle then
    if q.retry ≠ [] then { q with sending := .retryLater }
    else if q.outbound ≠ [] then { q with sending := .entry }
    else q
  else q

/-- An entry takes its place at the tail of the outbound list (09 R202). -/
def PortState.push (q : PortState) (e : OutEntry) : PortState :=
  { q with outbound := q.outbound ++ [e] }.beginSending

/-- An entry is placed if the link is UP and the list has a free entry, and dropped or discarded otherwise
(09 R203, R206). -/
def PortState.offer (q : PortState) (e : OutEntry) : PortState :=
  if q.canTake then q.push e else q

def State.place (s : State) (p : Port) (e : OutEntry) : State :=
  s.setPort p ((s.port p).offer e)

/-- A REPLY to a message (09 R196). -/
def replyTo (m : Message) (status : Status) (body : Body) : OutEntry :=
  .message { kind := .reply, code := m.code, tag := m.tag, status := some status, body := body }

/-- A NOTICE with tag 0 (09 R196). -/
def notice (code : Code) (body : Body) : OutEntry :=
  .message { kind := .notice, code := .name (.code code), tag := 0, status := none, body := body }

/-- A POST_ERROR, which carries the tag of the post refused (09 R196, R201). -/
def postErrorTo (m : Message) (error : PostError) (slot : Nat) : OutEntry :=
  .message { kind := .notice, code := .name (.code .postError), tag := m.tag, status := none
             body := .postError error m.code slot }

def State.reply (s : State) (p : Port) (m : Message) (status : Status) (body : Body := .empty) : State :=
  s.place p (replyTo m status body)

/-! ### Emissions -/

def State.emit (s : State) (e : Emission) : State := { s with sent := s.sent ++ [e] }

/-- The step begins: nothing has left the part in it yet (log 14). -/
def State.fresh (s : State) : State := { s with sent := [] }

/-! ### Plate records -/

/-- The record of a slot; a slot above 31 is as a slot whose record is FREE (01 R2). -/
def State.plate (s : State) (slot : Nat) : Option Plate := (s.plates[slot]?).join

/-- The plate table takes new records; the stage occupant and the indicator take their values at the same event
(01 R4, R6; log 16). -/
def State.setPlates (s : State) (plates : Vector (Option Plate) 32) : State :=
  { s with plates := plates, occupant := stageSlot plates, indicator := indicatorLevel plates }

def State.setPlate (s : State) (slot : Nat) (r : Option Plate) : State :=
  s.setPlates (s.plates.setIfInBounds slot r)

/-- A change of the record of an entered plate. -/
def State.modPlate (s : State) (slot : Nat) (f : Plate → Plate) : State :=
  match s.plate slot with
  | some pl => s.setPlate slot (some (f pl))
  | none => s

/-- The record on the stage, with its slot (01 R4). -/
def State.stagePlate (s : State) : Option (Nat × Plate) :=
  match s.occupant with
  | some i => (s.plate i).map (fun pl => (i, pl))
  | none => none

/-- What the plate table reports to the staging unit when it changes: the stage occupant, its state and its hold
(01 R8). -/
def State.stageView (s : State) : Option (Nat × PlateState × Bool) :=
  s.stagePlate.map (fun ip => (ip.1, ip.2.state, ip.2.hasHold))

/-! ### Program records -/

def State.program? (s : State) (tag : Nat) : Option Program :=
  s.programs.find? (fun g => decide (g.tag = tag))

def State.modProgram (s : State) (tag : Nat) (f : Program → Program) : State :=
  { s with programs := s.programs.map (fun g => if g.tag = tag then f g else g) }

/-- The head program: the oldest record in a counted state (03 R58). -/
def State.headProgram (s : State) : Option Program := s.programs.find? (fun g => g.state.counted)

/-- The RUNNING program (03 R58: at most one). -/
def State.running (s : State) : Option Program := s.programs.find? (fun g => decide (g.state = .running))

/-! ### Tile entries and pending entries -/

def State.tile? (s : State) (id : TileId) : Option TileEntry :=
  s.directory.find? (fun t => decide (t.id = id))

def State.modTile (s : State) (id : TileId) (f : TileEntry → TileEntry) : State :=
  { s with directory := s.directory.map (fun t => if t.id = id then f t else t) }

def State.removeTile (s : State) (id : TileId) : State :=
  { s with directory := s.directory.filter (fun t => decide (t.id ≠ id)) }

/-- The requesting port's own pending entry for a tile (08 R173). -/
def State.ownEntry (s : State) (p : Port) (id : TileId) : Option PendingEntry :=
  s.entries.find? (fun e => decide (e.port = p) && decide (e.tile = id))

/-- Another port's pending entry for a tile (08 R173). -/
def State.otherEntry (s : State) (p : Port) (id : TileId) : Option PendingEntry :=
  s.entries.find? (fun e => decide (e.port ≠ p) && decide (e.tile = id))

def State.removeEntry (s : State) (p : Port) (id : TileId) : State :=
  { s with entries := s.entries.filter (fun e => !(decide (e.port = p) && decide (e.tile = id))) }

/-- Pages return at the tail of the free list, in the order given (07 R147). -/
def State.returnPages (s : State) (chain : List Nat) : State :=
  { s with freePages := s.freePages ++ chain }

/-! ### The page map as the page lists give it (07 R146, R147; log 15) -/

/-- The chain names of a tile (07 R146): 0 is OUTPUT, k is RAW k. -/
def TileEntry.chains (t : TileEntry) : List (List Nat) := t.output :: t.raws

/-- The owner of a page: FREE (`none`), or the tile id and chain name of the chain that holds it (07 R146). -/
def State.pageOwner (s : State) (page : Nat) : Option (TileId × Nat) :=
  s.directory.findSome? (fun t => (t.chains.findIdx? (fun c => c.contains page)).map (fun k => (t.id, k)))

/-- The page that follows `page` in a list of pages; `none` is END (07 R146). -/
def pageAfter (page : Nat) : List Nat → Option Nat
  | a :: b :: rest => if a = page then some b else pageAfter page (b :: rest)
  | _ => none

/-- The next field of a page (07 R146). -/
def State.pageNext (s : State) (page : Nat) : Option Nat :=
  ((s.directory.flatMap TileEntry.chains ++ [s.freePages]).find? (fun c => c.contains page)).bind (pageAfter page)

end Sys2Proof.Machine
end

