-- ==== Sys2Proof/Machine/Accounts.lean ====
section
/-! DEFINITION. The dose accounts of a plate (01 R9 to R15) and their use by the other blocks. -/

namespace Sys2Proof.Machine

/-- The answer of the plate table to a charge (01 R12, R13). -/
inductive ChargeAnswer where
  | granted | doseLimit | notOnStage
  deriving DecidableEq, Repr

/-- The reservation list with the entry of `tag` holding `amount`; tags are distinct (01 R1). -/
def setRemaining : List Reservation → Nat → Nat → List Reservation
  | [], _, _ => []
  | r :: rs, tag, amount => if r.tag = tag then { r with remaining := amount } :: rs else r :: setRemaining rs tag amount

/-- Reserve (01 R10): granted if the estimate is within the unreserved remainder; the entry is appended and the
program count rises. -/
def Plate.reserve (pl : Plate) (tag estimate : Nat) : Option Plate :=
  if estimate ≤ pl.remainder then
    some { pl with reservations := pl.reservations ++ [{ tag := tag, remaining := estimate }]
                   programCount := pl.programCount + 1 }
  else none

/-- Re-estimate (01 R11). -/
def Plate.reestimate (pl : Plate) (tag estimate : Nat) : Option Plate :=
  if estimate ≤ pl.remainingOf tag + pl.remainder then
    some { pl with reservations := setRemaining pl.reservations tag estimate }
  else none

/-- Program charge (01 R12). -/
def Plate.programCharge (pl : Plate) (tag cost : Nat) : ChargeAnswer × Plate :=
  if pl.state ≠ .staged then (.notOnStage, pl)
  else if cost ≤ pl.remainingOf tag then
    (.granted, { pl with spent := pl.spent + cost
                         reservations := setRemaining pl.reservations tag (pl.remainingOf tag - cost) })
  else if cost - pl.remainingOf tag ≤ pl.remainder then
    (.granted, { pl with spent := pl.spent + cost, reservations := setRemaining pl.reservations tag 0 })
  else (.doseLimit, pl)

/-- Unreserved charge (01 R13): `required` is STAGED for a retake and REGISTERING for a margin exposure. -/
def Plate.unreservedCharge (pl : Plate) (required : PlateState) (cost : Nat) : ChargeAnswer × Plate :=
  if pl.state ≠ required then (.notOnStage, pl)
  else if cost ≤ pl.remainder then (.granted, { pl with spent := pl.spent + cost })
  else (.doseLimit, pl)

/-- Release (01 R14): the amount released and the record after it. -/
def Plate.release (pl : Plate) (tag : Nat) : Nat × Plate :=
  (pl.remainingOf tag,
   { pl with reservations := pl.reservations.filter (fun r => decide (r.tag ≠ tag))
             programCount := pl.programCount - 1 })

/-- A charge asked of the plate in a slot: a refused charge changes nothing (01 R12, R13). A slot with no plate is not
on the stage. -/
def State.charge (s : State) (slot : Nat) (f : Plate → ChargeAnswer × Plate) : ChargeAnswer × State :=
  match s.plate slot with
  | none => (.notOnStage, s)
  | some pl =>
    match f pl with
    | (.granted, pl') => (.granted, s.setPlate slot (some pl'))
    | (refusal, _) => (refusal, s)

/-- The charge for an exposure or a retake of a program's tile (01 R12, R13): on a grant the amount is reported to the
capture controller, and the program's dose charged rises by it (03 R63, R74). A program whose outcome is fixed takes no
further exposure: its readout runs on after a forced removal, and the charge that would follow it is refused with
NOT_ON_STAGE, "never retaken" (03 R66, 04 R95). DESIGN CHOICE: that is also so where the lost plate has been placed again
and is STAGED by then, for which R12 and R13 alone would grant the charge (log 26). -/
def State.chargeTile (s : State) (tag cost : Nat) (retake : Bool) : ChargeAnswer × State :=
  match s.program? tag with
  | none => (.notOnStage, s)
  | some g =>
    if g.outcome ≠ none then (.notOnStage, s)
    else
      match s.charge g.content.slot
          (fun pl => if retake then pl.unreservedCharge .staged cost else pl.programCharge tag cost) with
      | (.granted, s') => (.granted, s'.modProgram tag (fun g => { g with doseCharged := g.doseCharged + cost }))
      | other => other

/-- The charge of a margin exposure or its retake (01 R13, 02 R41): on a grant the registration's dose charged rises. -/
def State.chargeMargin (s : State) (cost : Nat) : ChargeAnswer × State :=
  match s.registration with
  | none => (.notOnStage, s)
  | some r =>
    match s.charge r.slot (fun pl => pl.unreservedCharge .registering cost) with
    | (.granted, s') => (.granted, { s' with registration := some { r with doseCharged := r.doseCharged + cost } })
    | other => other

/-- The release of a program's reservation (01 R14), recorded as dose released (03 R67). -/
def State.releaseProgram (s : State) (tag : Nat) : State :=
  match s.program? tag with
  | none => s
  | some g =>
    match s.plate g.content.slot with
    | none => s.modProgram tag (fun g => { g with doseReleased := some 0 })
    | some pl =>
      (s.setPlate g.content.slot (some (pl.release tag).2)).modProgram tag
        (fun g => { g with doseReleased := some (pl.release tag).1 })

end Sys2Proof.Machine
end

