-- ==== Sys2Proof/Machine/Exposure.lean ====
section
/-! DEFINITION. The exposure unit's own actions (04): moves (R84, R85), takes (R88), the change to IDLE, and abandoned
work (R97). What its clients do with its reports stands in ExposureEvents. -/

namespace Sys2Proof.Machine

def State.modContext (s : State) (f : ExposureContext → ExposureContext) : State :=
  { s with unit := { s.unit with context := s.unit.context.map f } }

/-- Work is handed over: the unit enters MOVING with attempt 1, sends a MOVE with the next sequence number and starts the
50 ms answer timer (04 R80, R84). -/
def State.startMove (s : State) (c : ExposureContext) : State :=
  { s with unit := { s.unit with
      state := .moving, context := some { c with attempt := 1 }, moveSeq := s.unit.moveSeq + 1, timer := .answer 50 } }.emit
    (.move (s.unit.moveSeq + 1) c.x c.y c.gentle)

/-- A new MOVE of the same work after the BUSY wait (04 R85). -/
def State.resendMove (s : State) (c : ExposureContext) : State :=
  { s with unit := { s.unit with
      context := some { c with attempt := c.attempt + 1 }, moveSeq := s.unit.moveSeq + 1, timer := .answer 50 } }.emit
    (.move (s.unit.moveSeq + 1) c.x c.y c.gentle)

/-- The exposure in hand (04 R79 "current exposure", counted from 1). -/
def ExposureContext.exposure? (c : ExposureContext) : Option Exposure := c.exposures[c.current - 1]?

/-- A take begins (04 R88, first row): START with the next take number; the gate opens at the work's level but for
CAL_DARK (R83); the lamp timer starts for t. -/
def State.startTake (s : State) : State :=
  match s.unit.context with
  | none => s
  | some c =>
    match c.exposure? with
    | none => s
    | some e =>
      { s with
        unit := { s.unit with state := .exposing, takeNumber := s.unit.takeNumber + 1, timer := .lamp e.time }
        lamp := if c.kind = WorkKind.calDark then s.lamp else { level := c.level, gateOpen := true } }.emit
        (.start (s.unit.takeNumber + 1) c.c0 c.width c.height)

/-- STOP is sent for the current take and the gate shut (04 R89, R97). -/
def State.stopTake (s : State) : State :=
  { s with lamp := { s.lamp with gateOpen := false } }.emit (.stop s.unit.takeNumber)

/-- The unit becomes IDLE and holds no context; the sequence and take numbers are kept (04 R79). -/
def State.unitIdle (s : State) : State :=
  { s with
    unit := { s.unit with state := .idle, context := none, timer := .stopped }
    lamp := { s.lamp with gateOpen := false } }

/-- An abandon request for the work the unit holds (04 R97). -/
def State.abandon (s : State) : State :=
  match s.unit.state, s.unit.context with
  | .moving, some _ => s.unitIdle
  | .exposing, some _ => s.stopTake.unitIdle
  | .readout, some c =>
    match c.kind with
    | .calDark | .calLight => s.unitIdle
    | .tile _ | .margin => s.modContext (fun c => { c with disposal := true })
  | _, _ => s

/-- The unit holds a tile's work and not in disposal. -/
def State.holdsTile (s : State) (id : TileId) : Bool :=
  match s.unit.context with
  | some c => decide (c.kind = .tile id) && !c.disposal
  | none => false

/-- The unit holds margin work, not in disposal. -/
def State.holdsMargin (s : State) : Bool :=
  match s.unit.context with
  | some c => decide (c.kind = .margin) && !c.disposal
  | none => false

end Sys2Proof.Machine
end

