-- ==== Sys2Proof/Machine/Memory.lean ====
section
/-! DEFINITION. The pages of the tile store (07 R146) as a list of cells in one canonical form, and the bytes of a chain
(07 R148). The byte at offset o of page k has address k * 65536 + o. -/

namespace Sys2Proof.Machine

/-- The size of a page in bytes (07 R146). -/
def pageSize : Nat := 65536

/-- What a byte that no cell lists reads as (log 8). -/
def unlisted : Byte := 0

/-- The canonical form: addresses strictly rising, and no cell that holds what an unlisted address reads as. -/
def Memory.wf : List Host.Cell → Bool
  | [] => true
  | [c] => decide (c.2 ≠ unlisted)
  | c :: d :: rest => decide (c.2 ≠ unlisted) && decide (c.1 < d.1) && Memory.wf (d :: rest)

def Memory.read (m : List Host.Cell) (a : Nat) : Byte :=
  match m.find? (fun c => decide (c.1 = a)) with
  | some c => c.2
  | none => unlisted

/-- The bytes from address `a` on. -/
def Memory.readRun (m : List Host.Cell) (a : Nat) : Nat → List Byte
  | 0 => []
  | k + 1 => Memory.read m a :: Memory.readRun m (a + 1) k

/-- The cells that list the bytes of a run from address `a` on. -/
def Memory.cells (a : Nat) : List Byte → List Host.Cell
  | [] => []
  | b :: bs => if b = unlisted then Memory.cells (a + 1) bs else (a, b) :: Memory.cells (a + 1) bs

/-- The run of bytes `bs` is written from address `a` on. -/
def Memory.writeRun (m : List Host.Cell) (a : Nat) (bs : List Byte) : List Host.Cell :=
  m.filter (fun c => decide (c.1 < a)) ++ Memory.cells a bs ++ m.filter (fun c => decide (a + bs.length ≤ c.1))

/-- The address of the byte at offset `o` of a chain, counted through its pages in chain order (07 R148). -/
def Memory.chainAddress : List Nat → Nat → Option Nat
  | [], _ => none
  | page :: chain, o =>
    if pageSize ≤ o then Memory.chainAddress chain (o - pageSize) else some (page * pageSize + o)

/-- Bytes written from offset `o` of a chain on, through its pages in chain order (07 R148). -/
def Memory.writeChain (m : List Host.Cell) : List Nat → Nat → List Byte → List Host.Cell
  | [], _, _ => m
  | page :: chain, o, bs =>
    if pageSize ≤ o then Memory.writeChain m chain (o - pageSize) bs
    else
      Memory.writeChain (Memory.writeRun m (page * pageSize + o) (bs.take (pageSize - o)))
        chain 0 (bs.drop (pageSize - o))

/-- The `len` bytes from offset `o` of a chain on (07 R148). -/
def Memory.readChain (m : List Host.Cell) : List Nat → Nat → Nat → List Byte
  | [], _, _ => []
  | page :: chain, o, len =>
    if pageSize ≤ o then Memory.readChain m chain (o - pageSize) len
    else
      Memory.readRun m (page * pageSize + o) (min len (pageSize - o)) ++
        Memory.readChain m chain 0 (len - (pageSize - o))

/-- The two bytes of each 16-bit value, least significant first (log 8). -/
def sampleBytes (vs : List (BitVec 16)) : List Byte :=
  vs.flatMap (fun (v : BitVec 16) => [BitVec.setWidth 8 v, BitVec.setWidth 8 (v >>> 8)])

/-- The 16-bit values of bytes laid down by `sampleBytes`. -/
def bytesSamples : List Byte → List (BitVec 16)
  | a :: b :: rest => (a.setWidth 16 ||| (b.setWidth 16 <<< 8)) :: bytesSamples rest
  | _ => []

/-- Line `y` of a tile of width `width` is written to a chain (07 R148, 04 R93, 06 R124). -/
def Memory.writeLine (m : List Host.Cell) (chain : List Nat) (width y : Nat) (vs : List (BitVec 16)) : List Host.Cell :=
  Memory.writeChain m chain (y * width * 2) (sampleBytes vs)

/-- Line `y` of a chain (07 R148). -/
def Memory.readLine (m : List Host.Cell) (chain : List Nat) (width y : Nat) : List (BitVec 16) :=
  bytesSamples (Memory.readChain m chain (y * width * 2) (width * 2))

end Sys2Proof.Machine
end

