-- ==== Sys2Proof/Machine/Notices.lean ====
section
/-! DEFINITION. The notices of plates and programs, their issue and their holding: CALL_PLATE and RETURN_PLATE (02 R34,
R35, R38), CALL_WITHDRAWN (02 R37), PROGRAM_DONE (03 R73, R75) and the removal of a record from the queue (07 R160). -/

namespace Sys2Proof.Machine

/-- CALL_PLATE (02 R34) or RETURN_PLATE (02 R35): what is kept with the notice, and the rest from the plate record as it
stands (02 R38). -/
def plateNotice (slot : Nat) (pl : Plate) : PendingNotice → OutEntry
  | .call tag => notice .callPlate (.callPlate slot pl.sizeClass pl.condition pl.carrier pl.accession tag)
  | .ret wanted => notice .returnPlate (.returnPlate slot pl.accession wanted)

/-- A plate notice becomes due: it goes on the handler port's list if the port can take it, and is set pending
otherwise (02 R38). -/
def State.issueNotice (s : State) (slot : Nat) (n : PendingNotice) : State :=
  match s.plate slot with
  | none => s
  | some pl =>
    if (s.port pl.handlerPort).canTake then s.place pl.handlerPort (plateNotice slot pl n)
    else s.modPlate slot (fun pl => { pl with noticePending := some n })

/-- The first slot, in ascending order, whose notice is pending for a port (02 R38). -/
def State.pendingSlot (s : State) (p : Port) : Option Nat :=
  s.plates.toList.findIdx? (fun r =>
    match r with
    | some pl => decide (pl.handlerPort = p) && pl.noticePending.isSome
    | none => false)

/-- The pending notice of a slot is placed and no longer pending (02 R38). -/
def State.issuePending (s : State) (slot : Nat) : State :=
  match s.plate slot with
  | none => s
  | some pl =>
    match pl.noticePending with
    | none => s
    | some n =>
      (s.modPlate slot (fun pl => { pl with noticePending := none })).place pl.handlerPort (plateNotice slot pl n)

/-- The height of a tile of a program, by its index. -/
def tileHeight (g : Program) (k : Nat) : Nat :=
  match g.content.tiles[k]? with
  | some d => d.height
  | none => 0

/-- PROGRAM_DONE (03 R73). -/
def programDone (g : Program) : OutEntry :=
  notice .programDone
    (.programDone g.tag g.content.slot g.outcome g.tilesCompleted (g.content.tiles.length - g.tilesCompleted)
      (g.failingTile.map (fun k => (k, tileHeight g k))) g.refusedTile g.doseCharged (g.doseReleased.getD 0) g.generation)

/-- The FAILED tile entries of a program leave the directory (07 R160). -/
def State.removeFailedTiles (s : State) (tag : Nat) : State :=
  { s with directory := s.directory.filter (fun t => !(decide (t.id.tag = tag) && decide (t.state = .failed))) }

/-- A record leaves the queue, and the FAILED tile entries of its program with it (03 R75, R76, 07 R160). -/
def State.dropProgram (s : State) (tag : Nat) : State :=
  { s with programs := s.programs.filter (fun g => decide (g.tag ≠ tag)) }.removeFailedTiles tag

/-- The PROGRAM_DONE of a FINISHED program is placed if the submitting port can take it, and the record leaves the
queue; otherwise the program stays FINISHED (03 R75). -/
def State.deliverDone (s : State) (tag : Nat) : State :=
  match s.program? tag with
  | none => s
  | some g =>
    if (s.port g.port).canTake then (s.place g.port (programDone g)).dropProgram tag else s

/-- A program becomes FINISHED (03 R75). -/
def State.finishProgram (s : State) (tag : Nat) : State :=
  (s.modProgram tag (fun g => { g with state := .finished, captureStep := none })).deliverDone tag

/-- The oldest FINISHED program whose PROGRAM_DONE is held for a port (03 R75). -/
def State.heldProgram (s : State) (p : Port) : Option Program :=
  s.programs.find? (fun g => decide (g.port = p) && decide (g.state = .finished))

/-- CALL_WITHDRAWN when a CALLED plate's program count has fallen to 0 (02 R37): a call whose notice is pending is only
cleared, and a notice that the port cannot take is dropped. -/
def State.withdrawCall (s : State) (slot : Nat) : State :=
  match s.plate slot with
  | none => s
  | some pl =>
    if pl.state = .called ∧ pl.programCount = 0 then
      let s1 := s.setPlate slot (some { pl with state := .racked, noticePending := none })
      match pl.noticePending with
      | some _ => s1
      | none => s1.place pl.handlerPort (notice .callWithdrawn (.callWithdrawn slot pl.accession))
    else s

end Sys2Proof.Machine
end

