-- ==== Sys2Proof/Machine/Reads.lean ====
section
/-! DEFINITION. Reads and what they do to the outbound list (08 R169 to R172, R186 to R191), the release of a reader
(07 R158, 08 R181), the freeing of a consumed tile (07 R161), TILE_READY (08 R192), and the claims for a free entry
(09 R204). -/

namespace Sys2Proof.Machine

/-! ### Pending entries and TILE_READY -/

/-- The entry flag of a TILE_READY for a port, with the discard time it reports (08 R192). -/
def State.entryFlagFor (s : State) (p : Port) (t : TileEntry) : EntryFlag × Nat :=
  match s.entries.find? (fun e => decide (e.tile = t.id) && decide (e.state = .ready)) with
  | some e => if e.port = p then (.heldForYou, e.timer.getD 0) else (.heldForOther, 0)
  | none =>
    match t.reader with
    | some (q, .drain) => if q = p then (.unheld, 0) else (.heldForOther, 0)
    | _ => (.unheld, 0)

/-- A TILE_READY is due to a port whose window covers the tile's slot; it is placed or dropped (08 R192). -/
def State.sendTileReady (s : State) (id : TileId) (p : Port) : State :=
  match s.tile? id with
  | none => s
  | some t =>
    if (s.port p).covers t.slot then
      s.place p (notice .tileReady
        (.tileReady id t.slot t.accession t.width t.height (s.entryFlagFor p t).1 (s.entryFlagFor p t).2))
    else s

/-- The WAITING entry for a tile changes its state, and its timer starts at the discard time in force
(08 R177, R178, R181). -/
def State.turnEntry (s : State) (id : TileId) (st : EntryState) : State :=
  { s with entries := s.entries.map (fun e =>
      if e.tile = id ∧ e.state = .waiting then { e with state := st, timer := some s.settings.discardTime } else e) }

/-- The WAITING entry for a tile. -/
def State.waitingEntry (s : State) (id : TileId) : Option PendingEntry :=
  s.entries.find? (fun e => decide (e.tile = id) && decide (e.state = .waiting))

/-- A WAITING entry for a COMPLETE tile with no reader becomes READY, and a TILE_READY is due to its port (08 R181). -/
def State.entryTurnsReady (s : State) (id : TileId) : State :=
  match s.tile? id, s.waitingEntry id with
  | some t, some e =>
    if t.state = .complete ∧ t.reader = none then (s.turnEntry id .ready).sendTileReady id e.port else s
  | _, _ => s

/-- The reader of a tile is released (07 R158), which may make a WAITING entry READY (08 R181). Without a reader the
consume field is no by the model's choice (log 27). -/
def State.releaseReader (s : State) (id : TileId) : State :=
  (s.modTile id (fun t => { t with reader := none, consume := false })).entryTurnsReady id

/-- A consumed tile is freed: its output chain returns and its entry is removed (07 R161). -/
def State.freeTile (s : State) (t : TileEntry) : State :=
  (s.returnPages t.output).removeTile t.id

/-! ### The stream entry of the open read -/

/-- The closing record as a message (09 R196, 10.7). -/
def closeMessage (tag : MsgTag) (r : CloseRecord) : OutMessage :=
  { kind := .close, code := .byte 0, tag := tag, status := none, body := .close r }

/-- An entry with a change made to it if it is the open read's stream entry. -/
def OutEntry.modOpen (f : StreamEntry → StreamEntry) : OutEntry → OutEntry
  | .stream x => if x.isOpen then .stream (f x) else .stream x
  | .message m => .message m

/-- The stream entry that an entry of the list is, if it is the open read's. -/
def OutEntry.openStream? : OutEntry → Option StreamEntry
  | .stream x => if x.isOpen then some x else none
  | .message _ => none

/-- A change of the open read's stream entry. -/
def PortState.modStream (q : PortState) (f : StreamEntry → StreamEntry) : PortState :=
  { q with outbound := q.outbound.map (OutEntry.modOpen f) }

/-- The open read's stream entry. -/
def PortState.stream? (q : PortState) : Option StreamEntry := q.outbound.findSome? OutEntry.openStream?

/-- The open read's stream entry is removed from the list; a message of it in the middle of its sending is cut
(08 R190, R191). -/
def PortState.removeStream (q : PortState) : PortState :=
  { q with
    outbound := q.outbound.filter (fun e => !e.isOpenStream)
    sending :=
      match q.outbound, q.sending with
      | e :: _, .entry => if e.isOpenStream then .idle else .entry
      | _, t => t }

/-- The closing record is attached to the stream entry in place of its run, and the entry belongs to no open read any
more (08 R171). -/
def PortState.attachClose (q : PortState) (m : OutMessage) : PortState :=
  q.modStream (fun x => { x with count := 0, close := some m, isOpen := false })

/-- The closing record of a read, with the tile's statistics when the outcome is COMPLETE (08 R172). -/
def closeRecord (r : Read) (t : TileEntry) (o : CloseOutcome) : CloseRecord :=
  { tile := r.tile, slot := t.slot, accession := t.accession, outcome := o, first := r.first, delivered := r.delivered
    stats := if o = .complete then t.stats else none }

/-- Another port holds a pending entry for the tile, WAITING or READY (07 R161). -/
def State.heldForOther (s : State) (p : Port) (id : TileId) : Bool :=
  s.entries.any (fun e => decide (e.port ≠ p) && decide (e.tile = id) && decide (e.state ≠ .failed))

/-- A read whose last owed line has been delivered ends: the closing record is attached, then the reader is released, or
the tile freed where the read consumes and delivered every line of it (08 R171, R188, 07 R158, R161). A tile whose last
line was delivered is COMPLETE (R126), and only a COMPLETE tile is freed here. -/
def State.closeDelivered (s : State) (p : Port) (r : Read) (t : TileEntry) : State :=
  let outcome : CloseOutcome := if r.endLine = t.height then .complete else .part
  let q := (s.port p).attachClose (closeMessage r.tag (closeRecord r t outcome))
  let s1 := s.setPort p { q with read := none }
  if t.consume = true ∧ t.state = .complete ∧ outcome = .complete ∧ r.first = 0 ∧ s.heldForOther p t.id = false then
    (s1.modTile t.id (fun t => { t with reader := none, consume := false })).freeTile t
  else s1.releaseReader t.id

/-- The port's read ends without a closing record, at loss of lock or PORT_RESET (08 R191). -/
def State.endReadSilently (s : State) (p : Port) : State :=
  match (s.port p).read with
  | none => s
  | some r =>
    let s1 := s.setPort p { (s.port p).removeStream with read := none }
    match s1.tile? r.tile with
    | some t => if t.reader = some (p, r.kind) then s1.releaseReader r.tile else s1
    | none => s1

/-! ### Bursts (08 R186, R187) -/

/-- U, the merged lines owed to a drain (08 R186). -/
def mergedOwed (r : Read) (t : TileEntry) : Nat := min t.fill r.endLine - r.position

/-- R, the lines still owed (08 R169, R186). -/
def stillOwed (r : Read) : Nat := r.endLine - r.position

/-- A burst is due (08 R186). -/
def burstDue (r : Read) (t : TileEntry) : Bool :=
  decide (r.kind = .drain) && decide (r.outcome = none) &&
    (decide (r.threshold.getD 1 ≤ mergedOwed r t) ||
      (decide (stillOwed r ≤ mergedOwed r t) && decide (0 < stillOwed r)) ||
      (decide (t.state = .complete) && decide (0 < mergedOwed r t)))

/-- The port's open read with the tile it reads, when a burst of it is due. -/
def State.dueBurst (s : State) (p : Port) : Option (Read × TileEntry) :=
  match (s.port p).read with
  | none => none
  | some r =>
    match s.tile? r.tile with
    | none => none
    | some t => if burstDue r t then some (r, t) else none

/-- The burst rule is judged for a port (08 R187): a due burst joins the standing stream entry, or takes a free entry of
the list, or waits. -/
def State.judgeBurst (s : State) (p : Port) : State :=
  match s.dueBurst p with
  | none => s
  | some (r, t) =>
    let q := { s.port p with read := some { r with position := r.position + mergedOwed r t } }
    if (s.port p).streamStands then
      s.setPort p (q.modStream (fun x =>
        { x with first := if x.count = 0 then r.position else x.first, count := x.count + mergedOwed r t }))
    else if (s.port p).canTake then
      s.setPort p (q.push (.stream
        { reply := none, tile := r.tile, tag := r.tag, first := r.position, count := mergedOwed r t
          close := none, isOpen := true }))
    else s

/-- The burst rule is judged for the drain joined to a tile (08 R187). -/
def State.judgeTileBurst (s : State) (id : TileId) : State :=
  match s.tile? id with
  | some t =>
    match t.reader with
    | some (p, _) => s.judgeBurst p
    | none => s
  | none => s

/-! ### The failure of a tile a drain is joined to (08 R189) -/

/-- The drain of a failed tile ends FAILED: the closing record is attached behind the unsent reply, or placed as a new
entry, or waits (08 R189). `t` is the tile's entry before the failure. -/
def State.failDrain (s : State) (t : TileEntry) : State :=
  match t.reader with
  | none => s
  | some (p, _) =>
    match (s.port p).read with
    | none => s
    | some r =>
      let m := closeMessage r.tag (closeRecord r t .failed)
      if (s.port p).streamStands then s.setPort p { (s.port p).attachClose m with read := none }
      else if (s.port p).canTake then s.setPort p ({ s.port p with read := none }.push (.message m))
      else
        s.setPort p { s.port p with
          read := some { r with outcome := some .failed, waitingClose := some (closeRecord r t .failed) } }

/-- The waiting closing record of a drain ended FAILED is placed (08 R189). -/
def State.placeWaitingClose (s : State) (p : Port) : State :=
  match (s.port p).read with
  | none => s
  | some r =>
    match r.waitingClose with
    | none => s
    | some c => s.setPort p ({ s.port p with read := none }.push (.message (closeMessage r.tag c)))

/-! ### Claims for a free entry (09 R204) -/

/-- The items that may wait for a free entry of a port's list, in the order of R204. -/
inductive Claim where
  | plateNotice (slot : Nat)
  | programDone (tag : Nat)
  | failedClose
  | burst
  deriving DecidableEq, Repr

/-- The first claim that waits for a free entry of a port (09 R204). -/
def State.nextClaim (s : State) (p : Port) : Option Claim :=
  match s.pendingSlot p with
  | some i => some (.plateNotice i)
  | none =>
    match s.heldProgram p with
    | some g => some (.programDone g.tag)
    | none =>
      if ((s.port p).read.bind (·.waitingClose)).isSome then some .failedClose
      else if (s.dueBurst p).isSome && !(s.port p).streamStands then some .burst
      else none

def State.serveClaim (s : State) (p : Port) : Claim → State
  | .plateNotice i => s.issuePending i
  | .programDone tag => s.deliverDone tag
  | .failedClose => s.placeWaitingClose p
  | .burst => s.judgeBurst p

/-- Up to `k` claims are served while a free entry of an UP link and a claim remain (09 R204). -/
def State.serveUpTo (s : State) (p : Port) : Nat → State
  | 0 => s
  | k + 1 =>
    if (s.port p).canTake then
      match s.nextClaim p with
      | some c => (s.serveClaim p c).serveUpTo p k
      | none => s
    else s

/-- The claims of R204 are served. Each takes one of the 64 entries of the list. -/
def State.serveClaims (s : State) (p : Port) : State := s.serveUpTo p 64

end Sys2Proof.Machine
end

