-- ==== Sys2Proof/Machine/Store.lean ====
section
/-! DEFINITION. The tile store's allocation (07 R148, R152, R153) and the failure of a tile (07 R159). -/

namespace Sys2Proof.Machine

/-- P, the pages of one chain of a tile (03 R62, 07 R148). -/
def chainPages (width height : Nat) : Nat := (width * height * 2 + 65535) / 65536

/-- The pages wanted for a tile (07 R152). -/
def AllocRequest.wanted (r : AllocRequest) : Nat := (1 + r.n) * chainPages r.width r.height

/-- `k` chains of `size` pages each, taken in list order (07 R153). -/
def takeChains (size : Nat) : Nat → List Nat → List (List Nat)
  | 0, _ => []
  | k + 1, l => l.take size :: takeChains size k (l.drop size)

/-- The statistics of a tile at creation (07 R150). -/
def TileStats.fresh : TileStats :=
  { normalCount := 0, underCount := 0, overCount := 0, gapCount := 0, negCount := 0, ceilCount := 0
    least := none, greatest := none, dose := 0, generation := none, rounding := none, mergeMode := none, baseFog := none }

/-- The entry created at the grant (07 R153). The consume field has a meaning only while a reader is joined (R150): its
value here is the model's, no (log 27). -/
def grantedEntry (r : AllocRequest) (free : List Nat) : TileEntry :=
  { id := r.id, slot := r.slot, accession := r.accession, width := r.width, height := r.height, n := r.n
    state := .capturing, fill := 0
    output := free.take (chainPages r.width r.height)
    raws := takeChains (chainPages r.width r.height) r.n (free.drop (chainPages r.width r.height))
    writer := false, reader := none, consume := false, stats := some TileStats.fresh }

/-- Enough pages and a directory entry are free (07 R152). -/
def State.canGrant (s : State) (r : AllocRequest) : Bool :=
  decide (r.wanted ≤ s.freePages.length) && decide (s.directory.length < 128)

/-- The grant (07 R153). -/
def State.grant (s : State) (r : AllocRequest) : State :=
  { s with
    freePages := s.freePages.drop r.wanted
    directory := s.directory ++ [grantedEntry r s.freePages]
    allocWaiting := none }

/-- A tile fails (07 R159): its pages return, output chain first; the entry becomes FAILED; a joined drain ends FAILED
(08 R189); a WAITING entry becomes FAILED (08 R178). Without a reader the consume field is no by the model's choice
(log 27). -/
def State.failTile (s : State) (id : TileId) : State :=
  match s.tile? id with
  | none => s
  | some t =>
    let s1 := (s.returnPages (t.output ++ t.raws.flatten)).modTile id (fun t =>
      { t with state := .failed, output := [], raws := [], fill := 0, reader := none, consume := false, stats := none })
    (s1.failDrain t).turnEntry id .failed

end Sys2Proof.Machine
end

