-- ==== Sys2Proof/Machine/Capture.lean ====
section
/-! DEFINITION. The capture controller: allocation and handover of the current tile (03 R62, R63), the captured and the
failed tile (R64, R65), a lost plate (R66), the end of capture (R67), and the start of a merge (06 R121, R123). -/

namespace Sys2Proof.Machine

/-- The steps of a tile's bracket set (03 R47). -/
def tileSteps (g : Program) (d : TileDesc) : List Int := g.content.brackets.getD d.bracket []

/-- The accession of the plate in a slot. -/
def State.accessionOf (s : State) (slot : Nat) : List Byte :=
  match s.plate slot with
  | some pl => pl.accession
  | none => []

/-- The plate in a slot is FLAKING, so its moves are gentle (04 R84). -/
def State.gentleFor (s : State) (slot : Nat) : Bool :=
  match s.plate slot with
  | some pl => decide (pl.condition = .flaking)
  | none => false

/-! ### Handover of a tile -/

/-- The context of TILE work (04 R80, 03 R63). DESIGN CHOICE (log 28): the next line before the first lamp phase ends is 0;
the spec gives no value. -/
def tileContext (s : State) (g : Program) (c : CalParams) (d : TileDesc) : ExposureContext :=
  { kind := .tile { tag := g.tag, index := g.nextTile }, x := d.x, y := d.y, gentle := s.gentleFor g.content.slot
    c0 := d.c0, width := d.width, height := d.height, exposures := (tileSteps g d).map (stepExposure c)
    current := 1, retakes := 0, level := c.level, attempt := 1, nextLine := 0, disposal := false, doseCharged := 0 }

/-- A tile in UNIT_WAIT is handed to the exposure unit if the unit is IDLE (03 R63, 04 R80). -/
def State.handTile (s : State) : State :=
  match s.running, s.cal.params with
  | some g, some c =>
    match g.content.tiles[g.nextTile]? with
    | some d =>
      if g.captureStep = some .unitWait ∧ s.unit.state = .idle then
        (s.startMove (tileContext s g c d)).modProgram g.tag (fun g => { g with captureStep := some .inUnit })
      else s
    | none => s
  | _, _ => s

/-! ### Allocation -/

/-- The allocation request of a program's current tile (07 R152). -/
def allocRequestOf (s : State) (g : Program) (d : TileDesc) : AllocRequest :=
  { id := { tag := g.tag, index := g.nextTile }, slot := g.content.slot, accession := s.accessionOf g.content.slot
    width := d.width, height := d.height, n := (tileSteps g d).length }

/-- In STORE_WAIT, with fewer than 4 tiles in the merge queue, the capture controller asks for the tile's space
(03 R62). -/
def State.requestAllocation (s : State) : State :=
  match s.running with
  | none => s
  | some g =>
    match g.content.tiles[g.nextTile]? with
    | none => s
    | some d =>
      if g.captureStep = some .storeWait ∧ s.allocWaiting = none ∧ s.mergeQueue.length < 4 then
        { s with allocWaiting := some (allocRequestOf s g d) }
      else s

/-- The waiting request is granted if it can be, and the tile is handed on (07 R153, R154, 03 R63). -/
def State.grantWaiting (s : State) : State :=
  match s.allocWaiting with
  | none => s
  | some r =>
    if s.canGrant r then
      ((s.grant r).modProgram r.id.tag (fun g => { g with captureStep := some .unitWait })).handTile
    else s

/-- The allocation of the current tile is tried (03 R62, 07 R154). -/
def State.tryAllocation (s : State) : State := s.requestAllocation.grantWaiting

/-! ### The start of a merge -/

/-- The merge context of a tile (06 R123). -/
def mergeContextOf (g : Program) (d : TileDesc) (id : TileId) : MergeContext :=
  { id := id, nextLine := 0, width := d.width, height := d.height, c0 := d.c0, bracket := d.bracket
    steps := tileSteps g d, sat := g.content.sat, floor := g.content.floor, rounding := g.content.rounding
    mergeMode := g.content.mergeMode, marking := g.content.marking, baseSubtraction := g.content.baseSubtraction
    baseFog := g.baseFogUsed, generation := g.generation }

/-- The statistics at the start of the merge: the dose is left as it stands (06 R123). -/
def statsAtMerge (c : MergeContext) (t : TileStats) : TileStats :=
  { TileStats.fresh with
    dose := t.dose, generation := c.generation, rounding := some c.rounding, mergeMode := some c.mergeMode
    baseFog := c.baseFog }

/-- A tile becomes head of the merge queue: MERGING, with the merge engine as its writer and fill count 0, and its merge
begins (06 R121 to R123, 07 R156). -/
def State.beginMerge (s : State) (id : TileId) : State :=
  match s.program? id.tag with
  | none => s
  | some g =>
    match g.content.tiles[id.index]? with
    | none => s
    | some d =>
      { s.modTile id (fun t =>
          { t with state := .merging, writer := true, fill := 0
                   stats := t.stats.map (statsAtMerge (mergeContextOf g d id)) }) with
        mergeContext := some (mergeContextOf g d id) }

/-- A tile joins the merge queue at the tail (06 R121); `dose` is the tile's dose from the CAPTURED report (04 R91). -/
def State.joinMerge (s : State) (id : TileId) (dose : Nat) : State :=
  let s1 := { s.modTile id (fun t =>
      { t with state := .mergeWait, stats := t.stats.map (fun x => { x with dose := dose }) }) with
    mergeQueue := s.mergeQueue ++ [id] }
  if s.mergeQueue = [] then s1.beginMerge id else s1

/-! ### The end of a tile and of a capture -/

/-- A program's capture ends (03 R67): its reservation is released, and it becomes MERGING, or FINISHED when none of its
tiles is in merge. -/
def State.endCapture (s : State) (tag : Nat) (failing : Option Nat) : State :=
  let s1 := (s.releaseProgram tag).modProgram tag (fun g => { g with captureStep := none, failingTile := failing })
  match s1.program? tag with
  | none => s1
  | some g =>
    if 0 < g.tilesInMerge then s1.modProgram tag (fun g => { g with state := .merging })
    else s1.finishProgram tag

/-- An outcome is fixed unless one is fixed already (03 R65, R72). -/
def State.fixOutcome (s : State) (tag : Nat) (o : ProgramOutcome) : State :=
  s.modProgram tag (fun g => { g with outcome := some (g.outcome.getD o) })

/-- The CAPTURED report for a tile (03 R64, R66). -/
def State.captured (s : State) (id : TileId) (dose : Nat) : State :=
  let s1 := (s.joinMerge id dose).modProgram id.tag (fun g =>
    { g with tilesInMerge := g.tilesInMerge + 1, nextTile := id.index + 1 })
  match s1.program? id.tag with
  | none => s1
  | some g =>
    match g.outcome with
    | some _ =>
      s1.endCapture id.tag (if id.index + 1 < g.content.tiles.length then some (id.index + 1) else none)
    | none =>
      if id.index + 1 < g.content.tiles.length then
        s1.modProgram id.tag (fun g => { g with captureStep := some .storeWait })
      else (s1.fixOutcome id.tag .completed).endCapture id.tag none

/-- The FAILED report for a tile (03 R65). -/
def State.captureFailed (s : State) (id : TileId) (cause : ProgramOutcome) : State :=
  ((s.failTile id).fixOutcome id.tag cause).endCapture id.tag (some id.index)

/-- The current tile of a RUNNING program is given up for a cancel (03 R70) or, with `readoutRunsOn`, for a forced
removal (03 R66): what happens to it by its capture step and the exposure unit's state. -/
def State.giveUpTile (s : State) (g : Program) (readoutRunsOn : Bool) : State :=
  let id : TileId := { tag := g.tag, index := g.nextTile }
  match g.captureStep with
  | some .storeWait => { s with allocWaiting := none }.endCapture g.tag (some g.nextTile)
  | some .unitWait => (s.failTile id).endCapture g.tag (some g.nextTile)
  | some .inUnit =>
    if s.unit.state = .readout ∧ readoutRunsOn = true then s
    else ((if s.holdsTile id then s.abandon else s).failTile id).endCapture g.tag (some g.nextTile)
  | none => s

/-- A forced removal of the plate of a RUNNING program (03 R66). -/
def State.losePlate (s : State) (slot : Nat) : State :=
  match s.running with
  | none => s
  | some g =>
    if g.content.slot = slot then (s.fixOutcome g.tag .plateLost).giveUpTile g true else s

end Sys2Proof.Machine
end

