-- ==== Sys2Proof/Machine/Staging.lean ====
section
/-! DEFINITION. The staging unit: the examination of the stage (02 R32, R33) with the start checks of the head program
(03 R60, R61), and registrations (02 R40 to R46). -/

namespace Sys2Proof.Machine

/-! ### Estimates and checks against a calibration -/

/-- The cost of a tile's bracket set (03 R54). -/
def stepsCost (c : CalParams) (steps : List Int) : Nat := (steps.map (fun e => (stepExposure c e).cost)).sum

/-- The estimate of a submission (03 R54). -/
def estimateOf (c : CalParams) (b : Submission) : Nat :=
  (b.tiles.map (fun d => stepsCost c (b.brackets.getD d.bracket []))).sum

/-- Every exposure time of a bracket set is legal (03 R53, R60). -/
def stepsLegal (c : CalParams) (steps : List Int) : Bool := steps.all (fun e => legalTime (exposureTime c.tRef e))

/-- A tile passes the first start check (03 R60). -/
def tileStarts (c : CalParams) (b : Submission) (d : TileDesc) : Bool :=
  decide (d.c0 + d.width ≤ c.width) && stepsLegal c (b.brackets.getD d.bracket [])

/-- The first tile that fails the first start check, if any (03 R60). -/
def firstRefused (c : CalParams) (b : Submission) : Option Nat := b.tiles.findIdx? (fun d => !tileStarts c b d)

/-! ### Calls and returns -/

/-- The head program's plate is called (02 R33, R34). -/
def State.callPlate (s : State) (slot tag : Nat) : State :=
  (s.modPlate slot (fun pl => { pl with state := .called })).issueNotice slot (.call tag)

/-- The stage occupant is returned (02 R33, R35). -/
def State.returnPlate (s : State) (slot wanted : Nat) : State :=
  (s.modPlate slot (fun pl => { pl with state := .releasing })).issueNotice slot (.ret wanted)

/-! ### The start of the head program -/

/-- A program ends at its start checks (03 R60). -/
def State.endAtStart (s : State) (tag : Nat) (o : ProgramOutcome) (refused : Option Nat) : State :=
  ((s.modProgram tag (fun g =>
    { g with outcome := some o, refusedTile := refused, generation := some s.cal.generation })).releaseProgram
      tag).finishProgram tag

/-- A program that passed every start check becomes RUNNING, and the capture of tile 0 begins with its allocation
(03 R61, R62). `pl` is the plate after the re-estimate. -/
def State.beginProgram (s : State) (g : Program) (pl : Plate) (estimate : Nat) : State :=
  ((s.setPlate g.content.slot (some pl)).modProgram g.tag (fun g =>
    { g with
      state := .running, estimate := estimate, generation := some s.cal.generation, nextTile := 0
      captureStep := some .storeWait
      baseFogUsed := if g.content.baseSubtraction then pl.baseFog else none })).tryAllocation

/-- The start checks of the head program, whose plate is STAGED (03 R60): the state after them, and whether the program
ended there. -/
def State.startHead (s : State) (g : Program) (pl : Plate) : Bool × State :=
  match s.cal.params with
  | none => (true, s.endAtStart g.tag .startRefused (some 0))
  | some c =>
    match firstRefused c g.content with
    | some k => (true, s.endAtStart g.tag .startRefused (some k))
    | none =>
      if g.content.baseSubtraction = true ∧ pl.baseFog = none then (true, s.endAtStart g.tag .noBase none)
      else
        match pl.reestimate g.tag (estimateOf c g.content) with
        | none => (true, s.endAtStart g.tag .doseLimit none)
        | some pl' => (false, s.beginProgram g pl' (estimateOf c g.content))

/-! ### The examination -/

/-- The head program takes a waiting state (03 R59). -/
def State.headWaits (s : State) (tag : Nat) (st : ProgramState) : State :=
  s.modProgram tag (fun g => { g with state := st })

/-- The stage occupant may be returned to make room: it is not RELEASING and has no hold (02 R33). -/
def Plate.returnable (pl : Plate) : Bool := decide (pl.state ≠ .releasing) && !pl.hasHold

/-- The rows of R33 for a head program whose plate is RACKED or CALLED (02 R33). -/
def State.examineOffStage (s : State) (g : Program) (pl : Plate) : State :=
  match s.stagePlate with
  | none =>
    (if pl.state = .racked then s.callPlate g.content.slot g.tag else s).headWaits g.tag .waitPlate
  | some (i, o) =>
    (if o.returnable then s.returnPlate i g.content.slot else s).headWaits g.tag .waitStage

/-- The examination of the stage (02 R32, R33). A program that ends at its start checks gives the head to the next, and
the stage is examined again (03 R60); `k` bounds how often. -/
def State.examineUpTo (s : State) : Nat → State
  | 0 => s
  | k + 1 =>
    match s.headProgram with
    | none => s
    | some g =>
      if g.state = .running then s
      else
        match s.plate g.content.slot with
        | none => s
        | some pl =>
          match pl.state with
          | .staged =>
            let r := s.startHead g pl
            if r.1 then r.2.examineUpTo k else r.2
          | .placed | .registering => s.headWaits g.tag .waitRegister
          | .releasing => s.headWaits g.tag .waitStage
          | .racked | .called => s.examineOffStage g pl

def State.examine (s : State) : State := s.examineUpTo (s.programs.length + 1)

/-- What brings about an examination (02 R32): a change of head program, or a report of R8, that is, a change of the
stage occupant, of its state or of its hold. The end and the abort of a registration change the occupant's state. -/
def State.examineOnChange (s0 s : State) : State :=
  if s.stageView = s0.stageView ∧ s.headProgram.map (·.tag) = s0.headProgram.map (·.tag) then s else s.examine

/-! ### Registration -/

/-- REG_DONE goes to the handler port, and to the requesting port if there is one and it differs; a port that cannot
take it loses it (02 R43). -/
def State.sendRegDone (s : State) (r : Registration) (pl : Plate) (o : RegOutcome) (fog : Option Nat) (normal : Nat) :
    State :=
  let e := notice .regDone (.regDone r.slot pl.accession o fog normal r.doseCharged)
  let s1 := s.place pl.handlerPort e
  match r.requester with
  | some q => if q = pl.handlerPort then s1 else s1.place q e
  | none => s1

/-- The margin result that the plate record keeps for an outcome (02 R43). -/
def marginResultOf : RegOutcome → MarginResult
  | .read => .read
  | .unreadable => .unreadable
  | .dose => .dose
  | .aborted => .noResult

/-- A registration ends (02 R43): the plate becomes STAGED with its margin result and base_fog, the context becomes
empty, and REG_DONE is sent. -/
def State.endRegistration (s : State) (r : Registration) (o : RegOutcome) (fog : Option Nat) (normal : Nat) : State :=
  match s.plate r.slot with
  | none => { s with registration := none }
  | some pl =>
    ({ s with registration := none }.setPlate r.slot
      (some { pl with state := .staged, marginResult := marginResultOf o, baseFog := fog })).sendRegDone r pl o fog normal

/-- The context of MARGIN work (04 R80, 02 R41). DESIGN CHOICE (log 28): the next line before the lamp phase ends is 0; the
spec gives no value. -/
def marginContext (s : State) (r : Registration) (c : CalParams) : ExposureContext :=
  { kind := .margin, x := 150, y := 150, gentle := s.gentleFor r.slot, c0 := r.offset, width := 64, height := 64
    exposures := [{ step := some r.step, time := r.time, cost := r.cost }], current := 1, retakes := 0
    level := c.level, attempt := 1, nextLine := 0, disposal := false, doseCharged := 0 }

/-- A registration in WAIT_UNIT is handed to the exposure unit if the unit is IDLE (02 R40, 04 R80). -/
def State.handMargin (s : State) : State :=
  match s.registration, s.cal.params with
  | some r, some c =>
    if r.phase = .waitUnit ∧ s.unit.state = .idle then
      { s with registration := some { r with phase := .moving } }.startMove (marginContext s r c)
    else s
  | _, _ => s

/-- A registration's context at its start, from the settings as they stand (02 R31, R40). -/
def newRegistration (s : State) (slot : Nat) (requester : Option Port) (time cost : Nat) : Registration :=
  { slot := slot, requester := requester, phase := .waitUnit, step := s.settings.marginStep
    saturation := s.settings.marginSaturation, floor := s.settings.marginFloor, offset := s.settings.marginOffset
    time := time, cost := cost, doseCharged := 0, retakes := 0, buffer := [] }

/-- The start of a registration of a plate that has become REGISTERING (02 R40). A failed start check ends it at once
with margin result UNREADABLE. -/
def State.startRegistration (s : State) (slot : Nat) (requester : Option Port) : State :=
  match s.cal.params with
  | none => s.endRegistration (newRegistration s slot requester 0 0) .unreadable none 0
  | some c =>
    let t := exposureTime c.tRef s.settings.marginStep
    let r := newRegistration s slot requester t (exposureCost c.level t)
    if s.settings.marginOffset + 64 ≤ c.width ∧ legalTime t = true then
      { s with registration := some r }.handMargin
    else s.endRegistration r .unreadable none 0

/-- A forced removal aborts the registration in flight (02 R46, 04 R101). `pl` is the plate's record. -/
def State.abortRegistration (s : State) (r : Registration) (pl : Plate) : State :=
  let s1 := match r.phase with
    | .moving | .exposing | .readout => if s.holdsMargin then s.abandon else s
    | .waitUnit | .measuring => s
  { s1 with registration := none }.sendRegDone r pl .aborted none 0

/-! ### A waiting client takes the IDLE unit -/

/-- When the unit is IDLE, a waiting client hands over its work (04 R80). The two cannot wait at once (log 17). -/
def State.offerUnit (s : State) : State := s.handTile.handMargin

/-- What follows an event that may change the stage, free pages or the exposure unit: the examination (02 R32), the
allocation that waits (07 R154), the client that waits (04 R80). `s0` is the state before the event (log 11). -/
def State.settle (s0 s : State) : State := ((s0.examineOnChange s).tryAllocation).offerUnit

end Sys2Proof.Machine
end

