-- ==== Sys2Proof/Machine/Calibration.lean ====
section
/-! DEFINITION. The calibration unit (05): the sums of its frames (R110, R111), the end of each frame (R110, R112), the
end of a calibration (R114, R115), and its interruption by a placement (R116). -/

namespace Sys2Proof.Machine

/-- What CAL_DONE says beyond the outcome: column, W, and the least W with its column (05 R115). -/
structure CalFigures where
  column : Option Nat
  w : Option Nat
  least : Option (Nat × Nat)
  deriving DecidableEq, Repr

def noFigures : CalFigures := { column := none, w := none, least := none }

/-- A calibration ends (05 R114, R115): the unit is IDLE, the context is discarded, and CAL_DONE is placed on the
requesting port's list or dropped. -/
def State.endCalibration (s : State) (k : CalContext) (o : CalOutcome) (f : CalFigures) : State :=
  { s with calContext := none }.place k.port
    (notice .calDone (.calDone o s.cal.generation k.tRef k.level k.width k.dark f.column f.w f.least))

/-- The work of a calibration frame (04 R80, 05 R109, R111): 16 lines over columns 0 to width - 1, of time t_ref.
DESIGN CHOICE (log 28): the next line before the first lamp phase ends is 0, and the move attempt of CAL_LIGHT work, which
has no move, is 1; the spec gives no value. -/
def calContextOf (kind : WorkKind) (k : CalContext) : ExposureContext :=
  { kind := kind, x := 0, y := 0, gentle := false, c0 := 0, width := k.width, height := 16
    exposures := [{ step := none, time := k.tRef, cost := 0 }], current := 1, retakes := 0, level := k.level
    attempt := 1, nextLine := 0, disposal := false, doseCharged := 0 }

/-- CAL_LIGHT work enters its exposure at once, without a move (04 R80, 05 R110). -/
def State.startLight (s : State) (k : CalContext) : State :=
  { s with
    calContext := some k
    unit := { s.unit with context := some (calContextOf .calLight k) } }.startTake

/-- DARK: the floor of the mean of the dark frame's samples (05 R110). -/
def darkLevel (k : CalContext) : Nat := k.darkSum / (16 * k.width)

/-- FRAME_DONE of the dark frame (05 R110): DARK is measured from here on, and a CAL_DONE carries it (R115). -/
def State.darkFrameDone (s : State) (k : CalContext) : State :=
  if 4096 ≤ darkLevel k then s.endCalibration { k with dark := some (darkLevel k) } .dark noFigures
  else s.startLight { k with phase := .light, dark := some (darkLevel k) }

/-- The net references W_c of the light frame (05 R112). -/
def netReferences (k : CalContext) : List Nat := k.columnSums.map (fun sum => sum / 16 - k.dark.getD 0)

/-- The least value of a list with the first place where it stands. -/
def leastAt : List Nat → Option (Nat × Nat)
  | [] => none
  | w :: ws =>
    match leastAt ws with
    | none => some (w, 0)
    | some (v, i) => if v < w then some (v, i + 1) else some (w, 0)

/-- The generation after a successful calibration: after 4,294,967,295 it continues at 1 (05 R106). -/
def nextGeneration (g : Nat) : Nat := if 4294967295 ≤ g then 1 else g + 1

/-- The record after a successful calibration (05 R112). -/
def calibratedRecord (g : Nat) (k : CalContext) : CalRecord :=
  { generation := nextGeneration g
    params := some { tRef := k.tRef, level := k.level, width := k.width, dark := k.dark.getD 0
                     table := (netReferences k).map logOf } }

/-- FRAME_DONE of the light frame is judged (05 R112). -/
def State.lightFrameDone (s : State) (k : CalContext) : State :=
  match k.saturation with
  | some c => s.endCalibration k .saturated { noFigures with column := some c }
  | none =>
    match (netReferences k).findIdx? (fun w => decide (w < 256)) with
    | some c =>
      s.endCalibration k .weak { noFigures with column := some c, w := some ((netReferences k).getD c 0) }
    | none =>
      { s with cal := calibratedRecord s.cal.generation k }.endCalibration k .calibrated
        { noFigures with least := leastAt (netReferences k) }

/-- The sum of a line's samples. -/
def lineSum (samples : List Sample) : Nat := (samples.map BitVec.toNat).sum

/-- A good line of the dark frame: line 0 starts the sum anew (05 R110). -/
def CalContext.addDark (k : CalContext) (y : Nat) (samples : List Sample) : CalContext :=
  { k with darkSum := (if y = 0 then 0 else k.darkSum) + lineSum samples }

/-- The lower of two columns, either of which may be absent. -/
def lowerOf : Option Nat → Option Nat → Option Nat
  | some a, some b => some (min a b)
  | some a, none => some a
  | none, b => b

/-- A good line of the light frame: line 0 starts the column sums anew and makes the saturation mark absent (05 R111). -/
def CalContext.addLight (k : CalContext) (y : Nat) (samples : List Sample) : CalContext :=
  let mark := samples.findIdx? (fun v => decide (v.toNat = 16383))
  if y = 0 then { k with columnSums := samples.map BitVec.toNat, saturation := mark }
  else
    { k with
      columnSums := List.zipWith (fun sum (v : Sample) => sum + v.toNat) k.columnSums samples
      saturation := lowerOf k.saturation mark }

/-- An accepted placement fails the calibration in flight, and its work is abandoned (05 R116, 04 R102). -/
def State.interruptCalibration (s : State) : State :=
  match s.calContext with
  | none => s
  | some k =>
    let s1 := match s.unit.context with
      | some c => if c.kind = WorkKind.calDark ∨ c.kind = WorkKind.calLight then s.abandon else s
      | none => s
    s1.endCalibration k .interrupted noFigures

end Sys2Proof.Machine
end

