-- ==== Sys2Proof/Machine/ExposureEvents.lean ====
section
/-! DEFINITION. The exposure unit's events and the reports they bring to its clients (04 R84 to R96, R98, R104), and the
commands of the instrument link, the sensor link and the unit's timers. -/

namespace Sys2Proof.Machine

/-! ### Reports to the clients (04 R104) -/

/-- The registration in flight ends without a reading (02 R41). -/
def State.marginEnds (s : State) (o : RegOutcome) : State :=
  match s.registration with
  | some r => s.endRegistration r o none 0
  | none => s

/-- The calibration in flight fails (05 R113). -/
def State.calibrationFails (s : State) (o : CalOutcome) : State :=
  match s.calContext with
  | some k => s.endCalibration k o noFigures
  | none => s

/-- A move ends as STAGE_FAULT (04 R86). -/
def State.moveFails (s : State) (c : ExposureContext) : State :=
  match c.kind with
  | .tile id => s.unitIdle.captureFailed id .stageFault
  | .margin => s.unitIdle.marginEnds .unreadable
  | .calDark | .calLight => s.unitIdle.calibrationFails .stage

/-- The third faulty take of an exposure ends the work as SENSOR_FAULT (04 R94). -/
def State.sensorFails (s : State) (c : ExposureContext) : State :=
  match c.kind with
  | .tile id => s.unitIdle.captureFailed id .sensorFault
  | .margin => s.unitIdle.marginEnds .unreadable
  | .calDark | .calLight => s.unitIdle.calibrationFails .sensor

/-- The registration's phase changes with the unit's (02 R41). -/
def State.regPhase (s : State) (ph : RegPhase) : State :=
  { s with registration := s.registration.map (fun r => { r with phase := ph }) }

/-! ### Charges and takes -/

/-- The answer to a charge for TILE work (04 R88, R94). -/
def State.afterTileCharge (s : State) (id : TileId) (cost : Nat) : ChargeAnswer → State
  | .granted => (s.modContext (fun c => { c with doseCharged := c.doseCharged + cost })).startTake
  | .doseLimit => s.unitIdle.captureFailed id .doseLimit
  | .notOnStage => s.unitIdle.captureFailed id .plateLost

/-- The answer to a charge for MARGIN work (04 R88, R94). A registration whose plate is gone has been aborted already,
and the staging unit ignores the report. -/
def State.afterMarginCharge (s : State) : ChargeAnswer → State
  | .granted => (s.regPhase .exposing).startTake
  | .doseLimit => s.unitIdle.marginEnds .dose
  | .notOnStage => s.unitIdle

/-- The exposure in hand begins with its charge (04 R88). -/
def State.beginExposure (s : State) : State :=
  match s.unit.context with
  | none => s
  | some c =>
    match c.exposure? with
    | none => s
    | some e =>
      match c.kind with
      | .tile id =>
        let a := s.chargeTile id.tag e.cost false
        a.2.afterTileCharge id e.cost a.1
      | .margin =>
        let a := s.chargeMargin e.cost
        a.2.afterMarginCharge a.1
      | .calDark | .calLight => s.startTake

/-- The context of a retake: the retake count rises by one (04 R94). -/
def State.countRetake (s : State) : State := s.modContext (fun c => { c with retakes := c.retakes + 1 })

/-- The registration's count of retakes rises, and the samples of the faulty take are discarded (02 R31, R41). -/
def State.countMarginRetake (s : State) : State :=
  { s with registration := s.registration.map (fun r => { r with retakes := r.retakes + 1, buffer := [] }) }

/-- A retake with its charge (04 R94). -/
def State.retake (s : State) (c : ExposureContext) (e : Exposure) : State :=
  match c.kind with
  | .tile id =>
    let a := s.chargeTile id.tag e.cost true
    (if a.1 = .granted then a.2.countRetake else a.2).afterTileCharge id e.cost a.1
  | .margin =>
    let a := s.chargeMargin e.cost
    (if a.1 = .granted then a.2.countRetake.countMarginRetake else a.2).afterMarginCharge a.1
  | .calDark | .calLight => s.countRetake.startTake

/-- A take is faulty (04 R94); a readout in disposal ends at its first fault (R98). -/
def State.takeFaulty (s : State) : State :=
  match s.unit.context with
  | none => s
  | some c =>
    if c.disposal then s.unitIdle
    else if c.retakes < 2 then
      match c.exposure? with
      | some e => s.retake c e
      | none => s
    else s.sensorFails c

/-! ### Lines and good takes -/

/-- The check value of a LINE: the sum modulo 65536 of its line number and every sample container (04 R90). -/
def lineCheck (number : BitVec 16) (samples : List Sample) : BitVec 16 := samples.foldl (· + ·) number

/-- A LINE of the current take is good (04 R90). -/
def lineGood (c : ExposureContext) (number count : BitVec 16) (samples : List Sample) (check : BitVec 16) : Bool :=
  decide (check = lineCheck number samples) && decide (number.toNat = c.nextLine) &&
    decide (count.toNat = c.width) && decide (samples.length = c.width) &&
    samples.all (fun v => decide (v.toNat ≤ 16383))

/-- A good line goes to its destination (04 R93). -/
def State.storeLine (s : State) (c : ExposureContext) (y : Nat) (samples : List Sample) : State :=
  match c.kind with
  | .tile id =>
    match s.tile? id with
    | some t => { s with pages := Memory.writeLine s.pages (t.raws.getD (c.current - 1) []) c.width y samples }
    | none => s
  | .margin =>
    { s with registration := s.registration.map (fun r => { r with buffer := r.buffer.take y ++ [samples] }) }
  | .calDark => { s with calContext := s.calContext.map (fun k => k.addDark y samples) }
  | .calLight => { s with calContext := s.calContext.map (fun k => k.addLight y samples) }

/-- The work is done (04 R91): the unit becomes IDLE and reports to its client. -/
def State.workDone (s : State) (c : ExposureContext) : State :=
  match c.kind with
  | .tile id => s.unitIdle.captured id c.doseCharged
  | .margin => s.unitIdle.regPhase .measuring
  | .calDark =>
    match s.calContext with
    | some k => s.unitIdle.darkFrameDone k
    | none => s.unitIdle
  | .calLight =>
    match s.calContext with
    | some k => s.unitIdle.lightFrameDone k
    | none => s.unitIdle

/-- A good take ends the exposure (04 R91): the next exposure begins, or the work is done. -/
def State.takeGood (s : State) (c : ExposureContext) : State :=
  if c.current < c.exposures.length then
    (s.modContext (fun c => { c with current := c.current + 1, retakes := 0 })).beginExposure
  else s.workDone c

/-- A good LINE (04 R90, R91, R92, R98). -/
def State.takeLine (s : State) (c : ExposureContext) (samples : List Sample) : State :=
  let s1 := if c.disposal then s else s.storeLine c c.nextLine samples
  let s2 := { s1 with unit := { s1.unit with
      context := some { c with nextLine := c.nextLine + 1 }, timer := .line 100 } }
  if c.nextLine + 1 = c.height then
    if c.disposal then s2.unitIdle else s2.takeGood { c with nextLine := c.nextLine + 1 }
  else s2

/-! ### Commands of the instrument link -/

/-- An answer acts when the unit is MOVING, not in the 10 ms wait, and the answer carries the sequence number of the
last MOVE (04 R84). -/
def State.answered (s : State) (seq : BitVec 8) : Option ExposureContext :=
  if s.unit.state = .moving ∧ seq = s.unit.moveSeq then
    match s.unit.timer with
    | .busyWait _ => none
    | _ => s.unit.context
  else none

def State.withTimer (s : State) (t : UnitTimer) : State := { s with unit := { s.unit with timer := t } }

/-- DONE_ANSWER (04 R87). -/
def execDoneAnswer (seq : BitVec 8) (s : State) : Host.Outcome State Fault Refusal :=
  match s.fresh.answered seq with
  | some _ => .next (s.fresh.settle (s.fresh.withTimer .stopped).beginExposure)
  | none => .next s.fresh

/-- MOVING_ANSWER (04 R84): the answer timer restarts at 50 ms. -/
def execMovingAnswer (seq : BitVec 8) (s : State) : Host.Outcome State Fault Refusal :=
  match s.fresh.answered seq with
  | some _ => .next (s.fresh.withTimer (.answer 50))
  | none => .next s.fresh

/-- BUSY_ANSWER (04 R85). -/
def execBusyAnswer (seq : BitVec 8) (s : State) : Host.Outcome State Fault Refusal :=
  match s.fresh.answered seq with
  | some c =>
    if c.attempt < s.settings.retryLimit then .next (s.fresh.withTimer (.busyWait 10))
    else .next (s.fresh.settle (s.fresh.moveFails c))
  | none => .next s.fresh

/-- FAULT_ANSWER (04 R86). -/
def execFaultAnswer (seq : BitVec 8) (s : State) : Host.Outcome State Fault Refusal :=
  match s.fresh.answered seq with
  | some c => .next (s.fresh.settle (s.fresh.moveFails c))
  | none => .next s.fresh

/-! ### Commands of the unit's timers -/

/-- ANSWER_TIMER_EXPIRY (04 R86): NO_ANSWER, which is not retried. -/
def execAnswerTimerExpiry (s : State) : Host.Outcome State Fault Refusal :=
  match s.unit.state, s.unit.timer, s.unit.context with
  | .moving, .answer _, some c => .next (s.fresh.settle (s.fresh.moveFails c))
  | _, _, _ => .next s.fresh

/-- BUSY_WAIT_EXPIRY (04 R85): a new MOVE is sent. -/
def execBusyWaitExpiry (s : State) : Host.Outcome State Fault Refusal :=
  match s.unit.state, s.unit.timer, s.unit.context with
  | .moving, .busyWait _, some c => .next (s.fresh.resendMove c)
  | _, _, _ => .next s.fresh

/-- LAMP_TIMER_EXPIRY (04 R89): the gate is shut, STOP is sent, and READOUT begins with the line timer. -/
def execLampTimerExpiry (s : State) : Host.Outcome State Fault Refusal :=
  match s.unit.state, s.unit.timer, s.unit.context with
  | .exposing, .lamp _, some c =>
    let s1 := s.fresh.stopTake
    let s2 := { s1 with unit := { s1.unit with
        state := .readout, context := some { c with nextLine := 0 }, timer := .line 100 } }
    .next (if c.kind = .margin then s2.regPhase .readout else s2)
  | _, _, _ => .next s.fresh

/-- LINE_TIMER_EXPIRY (04 R92). -/
def execLineTimerExpiry (s : State) : Host.Outcome State Fault Refusal :=
  match s.unit.state, s.unit.timer with
  | .readout, .line _ => .next (s.fresh.settle s.fresh.takeFaulty)
  | _, _ => .next s.fresh

/-! ### Commands of the sensor link -/

/-- LINE (04 R89, R90, R96): a LINE of the current take makes the take faulty in EXPOSING and is judged in READOUT; any
other is discarded. -/
def execLine (take : BitVec 8) (number count : BitVec 16) (samples : List Sample) (check : BitVec 16) (s : State) :
    Host.Outcome State Fault Refusal :=
  if take = s.unit.takeNumber then
    match s.unit.state, s.unit.context with
    | .exposing, some _ => .next (s.fresh.settle s.fresh.stopTake.takeFaulty)
    | .readout, some c =>
      .next (s.fresh.settle
        (if lineGood c number count samples check then s.fresh.takeLine c samples else s.fresh.takeFaulty))
    | _, _ => .next s.fresh
  else .next s.fresh

/-- SENSOR_ERROR (04 R89, R90, R96). -/
def execSensorError (take : BitVec 8) (s : State) : Host.Outcome State Fault Refusal :=
  if take = s.unit.takeNumber then
    match s.unit.state, s.unit.context with
    | .exposing, some _ => .next (s.fresh.settle s.fresh.stopTake.takeFaulty)
    | .readout, some _ => .next (s.fresh.settle s.fresh.takeFaulty)
    | _, _ => .next s.fresh
  else .next s.fresh

/-! ### Waiting work -/

/-- ALLOCATION_GRANT (07 R153, R154). -/
def execAllocationGrant (s : State) : Host.Outcome State Fault Refusal := .next s.fresh.grantWaiting

/-- WORK_HANDOVER (04 R80). -/
def execWorkHandover (s : State) : Host.Outcome State Fault Refusal := .next s.fresh.offerUnit

end Sys2Proof.Machine
end

