-- ==== Sys2Proof/Config.lean ====
section
/-! DEFINITION. What the manual leaves to the part: constants with no body, which no proof can evaluate. -/

namespace Sys2Proof.Config

/-- The revision number of the part, which the manual does not give (00 "Identification", 09 R212; log 7). -/
opaque revision : Byte

/-- The byte value of each named value: "each of its named values has one byte value", which the manual does not give
(10 R214; log 4). -/
opaque nameByte : Name → Byte

/-- The byte value of a byte that names none of the values of its place (10 R215; log 4). -/
opaque unnamedByte : Byte

end Sys2Proof.Config
end

