-- ==== Sys2Proof/Machine/Check.lean ====
section
/-! DEFINITION. The check of a frame (09 R197) and the numbers its bytes stand for. -/

namespace Sys2Proof.Machine

/-- The number a byte stands for. -/
def octetByte : Octet → Byte
  | .byte b => b
  | .name n => Config.nameByte n
  | .unnamed => Config.unnamedByte

/-- One bit of the reflected 04C11DB7h division. -/
def crcBit (r : BitVec 32) : BitVec 32 :=
  if r.getLsbD 0 then (r >>> 1) ^^^ 0xEDB88320#32 else r >>> 1

def crcBits : Nat → BitVec 32 → BitVec 32
  | 0, r => r
  | k + 1, r => crcBits k (crcBit r)

def crcByte (r : BitVec 32) (b : Byte) : BitVec 32 := crcBits 8 (r ^^^ b.setWidth 32)

/-- The 32-bit cyclic redundancy check of R197. -/
def crc32 (bs : List Byte) : BitVec 32 := ~~~ (bs.foldl crcByte 0xFFFFFFFF#32)

end Sys2Proof.Machine
end

