-- ==== Sys2Proof/Machine/Layout.lean ====
section
/-! DEFINITION. The layouts of outbound messages: header (10.2), reply payloads (10.5), plate record (10.6), tile data
(10.7), notices (10.8) and status report (10.9), as the bytes a station party receives. -/

namespace Sys2Proof.Machine

/-- An unsigned field of `k` bytes, little-endian (10 R214). -/
def numOctets (k v : Nat) : List Octet := (leBytes k v).map .byte

def u8Octets (v : Nat) : List Octet := numOctets 1 v
def u16Octets (v : Nat) : List Octet := numOctets 2 v
def u32Octets (v : Nat) : List Octet := numOctets 4 v

def nameOctets (n : Name) : List Octet := [.name n]

/-- A flag or presence byte, written as 0 or 1 (10 R214, R215). -/
def flagOctets (b : Bool) : List Octet := u8Octets (if b then 1 else 0)

def zeroOctets (k : Nat) : List Octet := List.replicate k (.byte 0)

def portNumber : Port → Nat
  | .p0 => 0
  | .p1 => 1
  | .p2 => 2

/-- The port set byte (10 R214): bit 0 for P0, bit 1 for P1, bit 2 for P2. -/
def portSetNumber (k : PortSet) : Nat :=
  (if k.p0 then 1 else 0) + (if k.p1 then 2 else 0) + (if k.p2 then 4 else 0)

def tileIdOctets (t : TileId) : List Octet := u16Octets t.tag ++ u16Octets t.index

/-- The fixed 16-byte area of an accession; bytes beyond its length are zero (10 R214). -/
def accessionArea (a : List Byte) : List Octet := (a.take 16).map .byte ++ zeroOctets (16 - a.length)

def codeOctets (cs : List (BitVec 16)) : List Octet := cs.flatMap (fun c => u16Octets c.toNat)

/-- A tile statistics record of 44 bytes (10.7). -/
def statsOctets (t : TileStats) : List Octet :=
  u32Octets t.normalCount ++ u32Octets t.underCount ++ u32Octets t.overCount ++ u32Octets t.gapCount ++
  u32Octets t.negCount ++ u32Octets t.ceilCount ++
  u16Octets (t.least.getD 0) ++ u16Octets (t.greatest.getD 0) ++ u16Octets (t.baseFog.getD 0) ++
  flagOctets t.least.isSome ++ flagOctets t.baseFog.isSome ++
  (match t.rounding with | some r => nameOctets (.rounding r) | none => zeroOctets 1) ++
  (match t.mergeMode with | some m => nameOctets (.mergeMode m) | none => zeroOctets 1) ++
  zeroOctets 2 ++ u32Octets (t.generation.getD 0) ++ u32Octets t.dose

/-- The plate record as read (10.6). -/
def plateOctets (slot : Nat) (pl : Plate) : List Octet :=
  u8Octets slot ++ nameOctets (.plateState (some pl.state)) ++ nameOctets (.sizeClass pl.sizeClass) ++
  nameOctets (.condition pl.condition) ++ nameOctets (.carrier pl.carrier) ++
  nameOctets (.marginResult pl.marginResult) ++ u8Octets (portNumber pl.handlerPort) ++
  u8Octets (portSetNumber pl.keeps) ++ u8Octets pl.programCount ++
  nameOctets (.noticePending (pl.noticePending.map (fun n => match n with | .call _ => .call | .ret _ => .ret))) ++
  flagOctets pl.baseFog.isSome ++ u8Octets pl.reservations.length ++ u8Octets pl.accession.length ++
  u8Octets pl.note.length ++ u16Octets (pl.baseFog.getD 0) ++
  u32Octets pl.budget ++ u32Octets pl.spent ++ u32Octets pl.reserved ++ u32Octets pl.remainder ++
  pl.reservations.flatMap (fun r => u16Octets r.tag ++ zeroOctets 2 ++ u32Octets r.remaining) ++
  pl.accession.map .byte ++ pl.note.map .byte

/-- The settings record (10.5). -/
def settingsOctets (t : Settings) : List Octet :=
  u16Octets t.discardTime ++ u16Octets t.retryLimit ++ flagOctets t.autoRegistration ++
  [.byte (BitVec.ofInt 8 t.marginStep)] ++ u16Octets t.marginSaturation ++ u16Octets t.marginFloor ++
  u16Octets t.marginOffset

/-- The identity string "DS416" and three zero bytes (10.9). -/
def identityOctets : List Octet :=
  [.byte 0x44, .byte 0x53, .byte 0x34, .byte 0x31, .byte 0x36] ++ zeroOctets 3

/-- The status report (10.9). -/
def statusOctets (r : StatusReport) : List Octet :=
  identityOctets ++ [.byte Config.revision] ++ nameOctets (.calUnit r.calState) ++ flagOctets r.cal.isSome ++
  (match r.cal with | some c => u8Octets c.level | none => zeroOctets 1) ++
  u32Octets r.generation ++
  (match r.cal with | some c => u32Octets c.tRef ++ u16Octets c.width | none => zeroOctets 6) ++
  flagOctets r.stage.isSome ++
  (match r.stage with | some (i, st) => u8Octets i ++ nameOctets (.plateState st) | none => zeroOctets 2) ++
  flagOctets r.indicator ++ nameOctets (.unit r.unitState) ++ u8Octets r.mergeDepth ++ u16Octets r.freePages ++
  u8Octets r.entriesInUse ++ u8Octets r.pendingEntries ++ nameOctets (.link r.link) ++ u8Octets r.windowBase ++
  u8Octets r.windowLimit ++ flagOctets r.previewFlag ++ u16Octets r.upCount.toNat ++ u8Octets r.inboundDepth ++
  u8Octets r.outboundInUse ++ flagOctets r.read.isSome ++
  (match r.read with
    | some d => nameOctets (.readKind d.kind) ++ tileIdOctets d.tile ++ u16Octets d.position ++ u16Octets d.delivered
    | none => zeroOctets 9) ++
  u8Octets r.ownPending ++ u8Octets r.ownFinished ++ u8Octets r.ownNotices ++ u8Octets r.programs.length ++
  flagOctets r.running.isSome ++
  (match r.running with
    | some (some st, k) => nameOctets (.captureStep st) ++ u8Octets k
    | some (none, k) => zeroOctets 1 ++ u8Octets k
    | none => zeroOctets 2) ++
  zeroOctets 1 ++
  r.programs.flatMap (fun g => u16Octets g.1 ++ nameOctets (.programState g.2) ++ zeroOctets 1)

/-- The payload of an outbound message. -/
def bodyOctets : Body → List Octet
  | .empty => []
  | .slot i => u8Octets i ++ zeroOctets 1
  | .plate i pl => plateOctets i pl
  | .budget b s v r => u32Octets b ++ u32Octets s ++ u32Octets v ++ u32Octets r
  | .keeps k => u8Octets (portSetNumber k) ++ zeroOctets 1
  | .held k c f => u8Octets (portSetNumber k) ++ u8Octets c ++ flagOctets f ++ zeroOctets 1
  | .programAccepted t e => u16Octets t ++ zeroOctets 2 ++ u32Octets e
  | .programOutcome t o => u16Octets t ++ nameOctets (.programOutcome o) ++ zeroOctets 1
  | .calibration t l w => u32Octets t ++ u16Octets l ++ u16Octets w
  | .pages n => u16Octets n
  | .fetchAccepted t w h => tileIdOctets t ++ u16Octets w ++ u16Octets h
  | .tileState st => nameOctets (.tileState st) ++ zeroOctets 1
  | .drainAccepted t w h st th k l =>
    tileIdOctets t ++ u16Octets w ++ u16Octets h ++ nameOctets (.tileState st) ++ zeroOctets 1 ++
    u16Octets th ++ u16Octets k ++ u16Octets l
  | .window b l => u8Octets b ++ u8Octets l
  | .flag b => flagOctets b ++ zeroOctets 1
  | .settings t => settingsOctets t
  | .status r => statusOctets r
  | .number v => u16Octets v
  | .dose e r => u32Octets e ++ u32Octets r
  | .busy st p =>
    flagOctets st.isSome ++ (match st with | some t => nameOctets (.tileState t) | none => zeroOctets 1) ++
    flagOctets p.isSome ++ (match p with | some q => u8Octets (portNumber q) | none => zeroOctets 1)
  | .postError e c i => nameOctets (.postError e) ++ [c] ++ u8Octets i ++ zeroOctets 1
  | .callPlate i sz cd ca a t =>
    u8Octets i ++ nameOctets (.sizeClass sz) ++ nameOctets (.condition cd) ++ nameOctets (.carrier ca) ++
    u8Octets a.length ++ zeroOctets 1 ++ u16Octets t ++ accessionArea a
  | .returnPlate i a w => u8Octets i ++ u8Octets a.length ++ u8Octets w ++ zeroOctets 1 ++ accessionArea a
  | .callWithdrawn i a => u8Octets i ++ u8Octets a.length ++ zeroOctets 2 ++ accessionArea a
  | .regDone i a o f n d =>
    u8Octets i ++ nameOctets (.regOutcome o) ++ flagOctets f.isSome ++ u8Octets a.length ++ u16Octets (f.getD 0) ++
    u16Octets n ++ u32Octets d ++ accessionArea a
  | .calDone o g t l w dk c wv least =>
    nameOctets (.calOutcome o) ++ u8Octets l ++ flagOctets dk.isSome ++ flagOctets c.isSome ++ flagOctets wv.isSome ++
    flagOctets least.isSome ++ u16Octets w ++ u32Octets t ++ u32Octets g ++ u16Octets (dk.getD 0) ++
    u16Octets (c.getD 0) ++ u16Octets (wv.getD 0) ++ u16Octets (least.getD (0, 0)).1 ++
    u16Octets (least.getD (0, 0)).2 ++ zeroOctets 2
  | .tileReady t i a w h f d =>
    tileIdOctets t ++ u8Octets i ++ nameOctets (.entryFlag f) ++ u8Octets a.length ++ zeroOctets 1 ++ u16Octets w ++
    u16Octets h ++ u16Octets d ++ zeroOctets 2 ++ accessionArea a
  | .programDone t i o c r f rf ch rl g =>
    u16Octets t ++ u8Octets i ++ (match o with | some v => nameOctets (.programOutcome v) | none => zeroOctets 1) ++
    u8Octets c ++ u8Octets r ++ flagOctets f.isSome ++ flagOctets rf.isSome ++ flagOctets g.isSome ++ zeroOctets 1 ++
    u16Octets (f.getD (0, 0)).1 ++ u16Octets (rf.getD 0) ++ u16Octets (f.getD (0, 0)).2 ++ u32Octets ch ++
    u32Octets rl ++ u32Octets (g.getD 0)
  | .preview t i y cs =>
    tileIdOctets t ++ u8Octets i ++ zeroOctets 1 ++ u16Octets y ++ u16Octets cs.length ++ codeOctets cs
  | .close r =>
    tileIdOctets r.tile ++ u8Octets r.slot ++ nameOctets (.closeOutcome r.outcome) ++ flagOctets r.stats.isSome ++
    u8Octets r.accession.length ++ u16Octets r.first ++ u16Octets r.delivered ++ accessionArea r.accession ++
    (match r.stats with | some t => statsOctets t | none => zeroOctets 44)
  | .line t y cs => tileIdOctets t ++ u16Octets y ++ u16Octets cs.length ++ codeOctets cs

/-- The status field of the header: the two bytes that name the status in a REPLY, zero otherwise (10.2). -/
def statusFieldOctets : Option Status → List Octet
  | some st => [.name (.statusLow st), .name (.statusHigh st)]
  | none => zeroOctets 2

/-- The header and the payload of an outbound message (10.2). -/
def messageOctets (m : OutMessage) : List Octet :=
  nameOctets (.kind m.kind) ++ [m.code] ++ u16Octets m.tag.toNat ++ u16Octets (bodyOctets m.body).length ++
    statusFieldOctets m.status ++ bodyOctets m.body

/-- The four bytes of the check over the bytes before it, least significant first (09 R197, 10 R214). -/
def checkOctets (bytes : List Octet) : List Octet := u32Octets (crc32 (bytes.map octetByte)).toNat

/-- The frame of an outbound message: header, payload and check (10.2). -/
def frameOf (m : OutMessage) : Frame := { bytes := messageOctets m ++ checkOctets (messageOctets m) }

end Sys2Proof.Machine
end

