-- ==== Sys2Proof/Machine/Operands.lean ====
section
/-! DEFINITION. Inbound messages: the frame and its check (09 R197, 10.2), the structure a port judges (09 R201, 10 R215,
R216), the payload layouts of 10.3 and 10.4, and the taking of a message from the head of an inbound queue (09 R199). -/

namespace Sys2Proof.Machine

/-! ### Bytes and fields -/

def octetAt (p : List Octet) (i : Nat) : Octet := p.getD i (.byte 0)

def u8At (p : List Octet) (i : Nat) : Nat := (octetByte (octetAt p i)).toNat

def u16At (p : List Octet) (i : Nat) : Nat := ofLeBytes [octetByte (octetAt p i), octetByte (octetAt p (i + 1))]

def u32At (p : List Octet) (i : Nat) : Nat :=
  ofLeBytes [octetByte (octetAt p i), octetByte (octetAt p (i + 1)),
    octetByte (octetAt p (i + 2)), octetByte (octetAt p (i + 3))]

/-- An i8 field, two's complement (10 R214). -/
def i8At (p : List Octet) (i : Nat) : Int := (octetByte (octetAt p i)).toInt

/-- A flag byte is off when it is 0 and on otherwise (10 R214). -/
def flagAt (p : List Octet) (i : Nat) : Bool := decide (u8At p i ≠ 0)

def bytesAt (p : List Octet) (i len : Nat) : List Byte := ((p.drop i).take len).map octetByte

def tileIdAt (p : List Octet) (i : Nat) : TileId := { tag := u16At p i, index := u16At p (i + 2) }

/-- A named-value byte read at a place whose values are `vals` (10 R214, R215): a byte given by name is that value; a
byte given by number, or by the name of a value of another kind, is the value with the same byte value, if any. -/
def readName {α : Type} (wrap : α → Name) (vals : List α) (o : Octet) : Option α :=
  match o with
  | .unnamed => none
  | .byte b => vals.find? (fun v => decide (Config.nameByte (wrap v) = b))
  | .name n =>
    match vals.find? (fun v => decide (wrap v = n)) with
    | some v => some v
    | none => vals.find? (fun v => decide (Config.nameByte (wrap v) = Config.nameByte n))

def allKinds : List Kind := [.req, .post, .reply, .notice, .line, .preview, .close]

/-- The codes of the first part of R200's table: requests. -/
def requestCodes : List Code :=
  [.plateEnter, .readPlate, .raiseBudget, .retirePlate, .keep, .unkeep, .releasePlate, .register, .submitProgram,
    .cancelProgram, .calibrate, .discardTile, .fetchTile, .openDrain, .stopRead, .setWindow, .readSettings,
    .writeSettings, .setPreview, .queryStatus]

/-- The codes of the second part of R200's table: posts. -/
def postCodes : List Code := [.platePlaced, .plateRemoved, .annotate, .portReset]

def readKindByte (o : Octet) : Option Kind := readName .kind allKinds o

def readCode (o : Octet) : Option Code := readName .code (requestCodes ++ postCodes) o

/-! ### A delivered frame (09 R197, 10.2) -/

/-- The payload length field of the header (10.2). -/
def framePayloadLength (f : Frame) : Nat := u16At f.bytes 4

/-- The check carried: the u32 behind the payload, least significant byte first (10.2, R214). -/
def frameCheck (f : Frame) : Nat := u32At f.bytes (8 + framePayloadLength f)

/-- The frame passes the check of R197: its length is 8 + payload length + 4, the payload length is at most 8240, and
the check carried is the one computed over the header and the payload as delivered (log 5). -/
def frameAccepted (f : Frame) : Bool :=
  decide (f.bytes.length = 8 + framePayloadLength f + 4) && decide (framePayloadLength f ≤ 8240) &&
    decide (frameCheck f = (crc32 ((f.bytes.take (8 + framePayloadLength f)).map octetByte)).toNat)

/-- The message that a checked frame carries (10.2). -/
def frameMessage (f : Frame) : Message :=
  { kind := octetAt f.bytes 0
    code := octetAt f.bytes 1
    tag := BitVec.ofNat 16 (u16At f.bytes 2)
    status := BitVec.ofNat 16 (u16At f.bytes 6)
    payload := (f.bytes.drop 8).take (framePayloadLength f) }

/-! ### Requests and posts -/

/-- A bracket set as submitted: its count and its four step positions (10.4). -/
structure BracketField where
  count : Nat
  steps : List Int
  deriving DecidableEq, Repr

/-- A program as submitted (10.4); a named field is absent where its byte names no value. -/
structure SubmitFields where
  slot : Nat
  rounding : Option RoundingMode
  mergeMode : Option MergeMode
  marking : Option Bool
  baseSubtraction : Option Bool
  sat : Nat
  floor : Nat
  bracketCount : Nat
  tileCount : Nat
  brackets : List BracketField
  tiles : List TileDesc
  deriving DecidableEq, Repr

/-- The fields of PLATE_ENTER (10.3). -/
structure EnterFields where
  accession : List Byte
  sizeClass : Option SizeClass
  condition : Option Condition
  carrier : Option Bool
  budget : Nat
  note : List Byte
  deriving DecidableEq, Repr

/-- The requests and posts of R200 with the fields of their payloads (10.3, 10.4). -/
inductive Request where
  | plateEnter (fields : EnterFields)
  | readPlate (slot : Nat)
  | raiseBudget (slot budget : Nat)
  | retirePlate (slot : Nat)
  | keep (slot : Nat)
  | unkeep (slot : Nat)
  | releasePlate (slot : Nat)
  | register (slot : Nat)
  | submitProgram (fields : SubmitFields)
  | cancelProgram (tag : Nat)
  | calibrate (tRef level width : Nat)
  | discardTile (tile : TileId)
  | fetchTile (tile : TileId) (consume : Bool)
  | openDrain (tile : TileId) (threshold count start : Nat) (consume : Bool)
  | stopRead
  | setWindow (base limit : Nat)
  | readSettings
  | writeSettings (discard retry : Nat) (auto : Bool) (step : Int) (saturation floor offset : Nat)
  | setPreview (on : Bool)
  | queryStatus
  | platePlaced (slot : Nat)
  | plateRemoved (slot : Nat)
  | annotate (slot : Nat) (note : List Byte)
  | portReset
  deriving DecidableEq, Repr

/-- The payload length that a code requires (10 R216). -/
def lengthHolds (c : Code) (p : List Octet) : Bool :=
  match c with
  | .plateEnter => decide (10 ≤ p.length) && decide (p.length = 10 + u8At p 0 + u8At p 1)
  | .submitProgram => decide (12 ≤ p.length) && decide (p.length = 12 + 6 * u8At p 5 + 12 * u8At p 6)
  | .annotate => decide (2 ≤ p.length) && decide (p.length ≤ 66)
  | .readPlate | .retirePlate | .keep | .unkeep | .releasePlate | .register | .platePlaced | .plateRemoved
  | .cancelProgram | .setWindow | .setPreview => decide (p.length = 2)
  | .raiseBudget | .fetchTile => decide (p.length = 6)
  | .discardTile => decide (p.length = 4)
  | .calibrate => decide (p.length = 8)
  | .openDrain | .writeSettings => decide (p.length = 12)
  | .stopRead | .readSettings | .queryStatus | .portReset => decide (p.length = 0)
  | _ => false

/-- The offsets of a bracket set's reserved bytes: byte 1, and the step positions at and beyond its count (10.4, R215). -/
def bracketReserved (p : List Octet) (k : Nat) : List Nat :=
  (12 + 6 * k + 1) ::
    ((List.range 4).filter (fun j => decide (u8At p (12 + 6 * k) ≤ j))).map (fun j => 12 + 6 * k + 2 + j)

/-- The offsets of the payload bytes that chapter 10 marks reserved (10.3, 10.4). -/
def reservedOffsets (c : Code) (p : List Octet) : List Nat :=
  match c with
  | .plateEnter | .fetchTile => [5]
  | .readPlate | .retirePlate | .keep | .unkeep | .releasePlate | .register | .platePlaced | .plateRemoved
  | .raiseBudget | .annotate | .setPreview => [1]
  | .openDrain => [11]
  | .submitProgram =>
    7 :: ((List.range (u8At p 5)).flatMap (bracketReserved p) ++
      (List.range (u8At p 6)).map (fun k => 12 + 6 * u8At p 5 + 12 * k + 11))
  | _ => []

def reservedHold (c : Code) (p : List Octet) : Bool :=
  (reservedOffsets c p).all (fun i => decide (octetByte (octetAt p i) = 0))

/-- A bracket set at its offset (10.4). The steps are those below the count. -/
def readBracket (p : List Octet) (k : Nat) : BracketField :=
  { count := u8At p (12 + 6 * k)
    steps := (List.range (min 4 (u8At p (12 + 6 * k)))).map (fun j => i8At p (12 + 6 * k + 2 + j)) }

/-- A tile descriptor at its offset (10.4). -/
def readTileDesc (p : List Octet) (o : Nat) : TileDesc :=
  { x := u16At p o, y := u16At p (o + 2), c0 := u16At p (o + 4)
    width := u16At p (o + 6), height := u16At p (o + 8), bracket := u8At p (o + 10) }

def readSubmit (p : List Octet) : SubmitFields :=
  { slot := u8At p 0
    rounding := readName .rounding [.nearestEven, .toZero, .up, .down] (octetAt p 1)
    mergeMode := readName .mergeMode [.select, .blend] (octetAt p 2)
    marking := readName .marking [true, false] (octetAt p 3)
    baseSubtraction := readName .baseSubtraction [true, false] (octetAt p 4)
    sat := u16At p 8
    floor := u16At p 10
    bracketCount := u8At p 5
    tileCount := u8At p 6
    brackets := (List.range (u8At p 5)).map (readBracket p)
    tiles := (List.range (u8At p 6)).map (fun k => readTileDesc p (12 + 6 * u8At p 5 + 12 * k)) }

def readEnter (p : List Octet) : EnterFields :=
  { accession := bytesAt p 10 (u8At p 0)
    sizeClass := readName .sizeClass [.q, .h, .w, .l] (octetAt p 2)
    condition := readName .condition [.sound, .cracked, .flaking] (octetAt p 3)
    carrier := readName .carrier [true, false] (octetAt p 4)
    budget := u32At p 6
    note := bytesAt p (10 + u8At p 0) (u8At p 1) }

/-- The request or post of a code with its payload's fields (10.3). -/
def readRequest (c : Code) (p : List Octet) : Option Request :=
  match c with
  | .plateEnter => some (.plateEnter (readEnter p))
  | .readPlate => some (.readPlate (u8At p 0))
  | .raiseBudget => some (.raiseBudget (u8At p 0) (u32At p 2))
  | .retirePlate => some (.retirePlate (u8At p 0))
  | .keep => some (.keep (u8At p 0))
  | .unkeep => some (.unkeep (u8At p 0))
  | .releasePlate => some (.releasePlate (u8At p 0))
  | .register => some (.register (u8At p 0))
  | .submitProgram => some (.submitProgram (readSubmit p))
  | .cancelProgram => some (.cancelProgram (u16At p 0))
  | .calibrate => some (.calibrate (u32At p 0) (u16At p 4) (u16At p 6))
  | .discardTile => some (.discardTile (tileIdAt p 0))
  | .fetchTile => some (.fetchTile (tileIdAt p 0) (flagAt p 4))
  | .openDrain => some (.openDrain (tileIdAt p 0) (u16At p 4) (u16At p 6) (u16At p 8) (flagAt p 10))
  | .stopRead => some .stopRead
  | .setWindow => some (.setWindow (u8At p 0) (u8At p 1))
  | .readSettings => some .readSettings
  | .writeSettings =>
    some (.writeSettings (u16At p 0) (u16At p 2) (flagAt p 4) (i8At p 5) (u16At p 6) (u16At p 8) (u16At p 10))
  | .setPreview => some (.setPreview (flagAt p 0))
  | .queryStatus => some .queryStatus
  | .platePlaced => some (.platePlaced (u8At p 0))
  | .plateRemoved => some (.plateRemoved (u8At p 0))
  | .annotate => some (.annotate (u8At p 0) (bytesAt p 2 (p.length - 2)))
  | .portReset => some .portReset
  | _ => none

/-- What a port finds when it takes a message (09 R200, R201). -/
inductive Taken where
  | request (r : Request)
  | malformedRequest
  | malformedPost
  | discarded
  deriving DecidableEq, Repr

/-- The well-formed request or post of a message whose kind asks for a code of `codes` (09 R201). -/
def readWellFormed (codes : List Code) (m : Message) : Option Request :=
  match readCode m.code with
  | some c =>
    if codes.contains c && lengthHolds c m.payload && reservedHold c m.payload && decide (m.status = 0) then
      readRequest c m.payload
    else none
  | none => none

def readMessage (m : Message) : Taken :=
  match readKindByte m.kind with
  | some .req =>
    match readWellFormed requestCodes m with
    | some r => .request r
    | none => .malformedRequest
  | some .post =>
    match readWellFormed postCodes m with
    | some r => .request r
    | none => .malformedPost
  | _ => .discarded

/-! ### Taking a message (09 R199) -/

/-- The port takes the message at the head of its inbound queue, if it may take one. -/
def State.take (s : State) (p : Port) : Option (Message × State) :=
  if (s.port p).mayTake then
    match (s.port p).inbound with
    | m :: rest => some (m, s.setPort p { s.port p with inbound := rest })
    | [] => none
  else none

/-- The step of taking a request or post: `act` gives its effect when the message taken is the one the step is for.
Where the port may not take, or another message stands at the head, the step does not occur (log 3). -/
def State.taking (s : State) (p : Port) (act : Message → Request → State → Option State) : State :=
  match s.fresh.take p with
  | none => s.fresh
  | some (m, s1) =>
    match readMessage m with
    | .request r =>
      match act m r s1 with
      | some s2 => s2
      | none => s.fresh
    | _ => s.fresh

end Sys2Proof.Machine
end

