-- ==== Sys2Proof/Machine/Links.lean ====
section
/-! DEFINITION. The links of the station ports: RESET, LOCK, LOSS_OF_LOCK, MESSAGE_ARRIVAL, MALFORMED, MESSAGE_ACCEPTED
and LINE_DELIVERED (09 R195 to R207, 08 R170, R171). -/

namespace Sys2Proof.Machine

/-- The link finds a boundary between two messages: the next one begins, if any (09 R198, R202). -/
def State.beginSending (s : State) (p : Port) : State := s.setPort p (s.port p).beginSending

/-- What follows when entries of a port's list may have become free: the claims of R204, the next message to send, and
what a PROGRAM_DONE that left the queue brings about (07 R154). `s0` is the state before the event. -/
def State.serveFreed (s0 s : State) (p : Port) : State := s0.settle ((s.serveClaims p).beginSending p)

/-- RESET (01 R30, 02 R31, 03 R78, 04 R103, 05 R119, 06 R128, 07 R166, 08 R194, 09 R213). The commands that wait are
the model's and stay (log 9). -/
def execReset (s : State) : Host.Outcome State Fault Refusal := .next { State.reset with pending := s.pending }

/-- The link becomes UP and the UP count rises by one, after 65535 to 0 again (09 R195, R207). -/
def PortState.comeUp (q : PortState) : PortState := { q with link := .up, upCount := q.upCount + 1 }

/-- LOCK (09 R195, R207): taken in UP it changes nothing. -/
def execLock (p : Port) (s : State) : Host.Outcome State Fault Refusal :=
  if (s.port p).link = .down then
    .next (s.fresh.serveFreed (s.fresh.setPort p (s.port p).comeUp) p)
  else .next s.fresh

/-- The port's pending entries are removed, whatever their state (08 R182). -/
def State.dropEntries (s : State) (p : Port) : State :=
  { s with entries := s.entries.filter (fun e => decide (e.port ≠ p)) }

/-- The link goes DOWN: what it was sending is not accepted, and the retry list is emptied (09 R205). -/
def PortState.goDown (q : PortState) : PortState := { q with link := .down, sending := .idle, retry := [] }

/-- LOSS_OF_LOCK (09 R205): taken in DOWN it changes nothing. -/
def execLossOfLock (p : Port) (s : State) : Host.Outcome State Fault Refusal :=
  if (s.port p).link = .up then
    .next (((s.fresh.setPort p (s.port p).goDown).dropEntries p).endReadSilently p)
  else .next s.fresh

/-- A checked message joins the inbound queue, is refused to the retry list, or is discarded (09 R198). -/
def PortState.accept (q : PortState) (m : Message) : PortState :=
  if q.inbound.length < 16 then { q with inbound := q.inbound ++ [m] }
  else if q.retry.length < 16 then
    PortState.beginSending { q with retry := q.retry ++ [{ tag := m.tag, code := m.code, kind := m.kind }] }
  else q

/-- MESSAGE_ARRIVAL (09 R197, R198). A link that is DOWN delivers nothing (log 19). -/
def execMessageArrival (p : Port) (frame : Frame) (s : State) : Host.Outcome State Fault Refusal :=
  if (s.port p).link = .up ∧ frameAccepted frame = true then
    .next (s.fresh.setPort p ((s.port p).accept (frameMessage frame)))
  else .next s.fresh

/-- MALFORMED (09 R201): a malformed REQ is answered by a REPLY, a malformed POST by a POST_ERROR, and a message of an
outbound kind or of no kind is discarded. -/
def execMalformed (p : Port) (s : State) : Host.Outcome State Fault Refusal :=
  match s.fresh.take p with
  | none => .next s.fresh
  | some (m, s1) =>
    match readMessage m with
    | .malformedRequest => .next (s1.reply p m .malformed)
    | .malformedPost => .next (s1.place p (postErrorTo m .malformed 0))
    | .discarded => .next s1
    | .request _ => .next s.fresh

/-- The RETRY_LATER reply to a refused message (09 R198). -/
def retryReply (r : RetryRefusal) : OutMessage :=
  { kind := .reply, code := r.code, tag := r.tag, status := some .retryLater, body := .empty }

/-- What the link accepts, and the port after it with the boundary not yet used, for a message that is no LINE
(09 R198, R202, 08 R170). -/
def PortState.acceptMessage (q : PortState) : Option (OutMessage × PortState) :=
  match q.sending with
  | .idle => none
  | .retryLater =>
    match q.retry with
    | r :: rest => some (retryReply r, { q with retry := rest, sending := .idle })
    | [] => none
  | .entry =>
    match q.outbound with
    | .message m :: rest => some (m, { q with outbound := rest, sending := .idle })
    | .stream e :: rest =>
      match e.reply with
      | some m =>
        let after := { e with reply := none }
        some (m, { q with
          outbound := if after.count = 0 ∧ after.close = none then rest else .stream after :: rest, sending := .idle })
      | none =>
        if e.count = 0 then
          match e.close with
          | some m => some (m, { q with outbound := rest, sending := .idle })
          | none => none
        else none
    | [] => none

/-- MESSAGE_ACCEPTED (09 R195, R198, R202). -/
def execMessageAccepted (p : Port) (s : State) : Host.Outcome State Fault Refusal :=
  if (s.port p).link = .up then
    match (s.port p).acceptMessage with
    | some (m, q) => .next (s.fresh.serveFreed ((s.fresh.setPort p q).emit (.frame p (frameOf m))) p)
    | none => .next s.fresh
  else .next s.fresh

/-- The stream entry whose next LINE the link is taking: it stands at the front, its reply is sent, and its run holds
lines (08 R170). -/
def PortState.lineSending (q : PortState) : Option StreamEntry :=
  match q.sending, q.outbound with
  | .entry, .stream e :: _ => if e.reply = none ∧ 0 < e.count then some e else none
  | _, _ => none

/-- The LINE message of a tile's line `y` (09 R196, 10.7), drawn from its output chain (07 R148, 08 R170). -/
def State.lineMessage (s : State) (tag : MsgTag) (t : TileEntry) (y : Nat) : OutMessage :=
  { kind := .line, code := .byte 0, tag := tag, status := none
    body := .line t.id y (Memory.readLine s.pages t.output t.width y) }

/-- The line that was delivered leaves the run; an entry with nothing left to send leaves the list (08 R170). `ended`
says that the closing record is to be attached. -/
def PortState.lineLeaves (q : PortState) (e : StreamEntry) (ended : Bool) : PortState :=
  let after := { e with first := e.first + 1, count := e.count - 1 }
  { q with
    outbound := if after.count = 0 ∧ ended = false then q.outbound.tail else .stream after :: q.outbound.tail
    sending := .idle }

/-- The event of a delivered line (08 R170, R171). `r` is the open read and `t` its tile. -/
def State.lineDelivered (s : State) (p : Port) (e : StreamEntry) (r : Read) (t : TileEntry) : State :=
  let r' := { r with delivered := r.delivered + 1 }
  let ended := decide (e.count = 1) && decide (stillOwed r' = 0)
  let s1 := (s.setPort p { (s.port p).lineLeaves e ended with read := some r' }).emit
    (.frame p (frameOf (s.lineMessage e.tag t e.first)))
  if ended then s1.closeDelivered p r' t else s1

/-- LINE_DELIVERED (08 R170). -/
def execLineDelivered (p : Port) (s : State) : Host.Outcome State Fault Refusal :=
  match (s.port p).link, (s.port p).lineSending, (s.port p).read with
  | .up, some e, some r =>
    match s.tile? r.tile with
    | some t => .next (s.fresh.serveFreed (s.fresh.lineDelivered p e r t) p)
    | none => .next s.fresh
  | _, _, _ => .next s.fresh

end Sys2Proof.Machine
end

