-- ==== Sys2Proof/Machine/Merge.lean ====
section
/-! DEFINITION. The merge engine: the merge of one line (06 R124), the statistics (R142), preview lines (R144, R145,
08 R193), the completion of a tile (R126), and the end of a margin measurement (02 R42, R43). -/

namespace Sys2Proof.Machine

/-- The parameters of the density arithmetic for the tile being merged (06 R123, R129). -/
def tileDensity (c : MergeContext) (p : CalParams) : DensityParams :=
  { steps := c.steps, dark := p.dark, sat := c.sat, floor := c.floor, rounding := c.rounding, mergeMode := c.mergeMode
    marking := c.marking, fog := if c.baseSubtraction then c.baseFog else none }

/-- The raw lines of the line being merged, one per exposure (06 R124). -/
def State.rawLines (s : State) (c : MergeContext) (t : TileEntry) : List (List Sample) :=
  t.raws.map (fun chain => Memory.readLine s.pages chain c.width c.nextLine)

/-- The class and final code of each sample of the line being merged, in column order (06 R124). -/
def State.mergedLine (s : State) (c : MergeContext) (p : CalParams) (t : TileEntry) : List (SampleClass × Nat) :=
  (List.range c.width).map (fun x =>
    density (tileDensity c p) (p.table.getD (c.c0 + x) 0) ((s.rawLines c t).map (fun l => (l.getD x 0).toNat)))

def lowest (a : Option Nat) (v : Nat) : Option Nat :=
  match a with
  | some b => some (min b v)
  | none => some v

def highest (a : Option Nat) (v : Nat) : Option Nat :=
  match a with
  | some b => some (max b v)
  | none => some v

/-- One sample enters the statistics (06 R142). -/
def TileStats.add (t : TileStats) (x : SampleClass × Nat) : TileStats :=
  match x.1 with
  | .normal => { t with normalCount := t.normalCount + 1, least := lowest t.least x.2, greatest := highest t.greatest x.2 }
  | .under => { t with underCount := t.underCount + 1 }
  | .above => { t with overCount := t.overCount + 1 }
  | .gap => { t with gapCount := t.gapCount + 1 }
  | .neg => { t with negCount := t.negCount + 1 }
  | .ceil => { t with ceilCount := t.ceilCount + 1 }

/-- The samples of a line enter the statistics (06 R142). -/
def TileStats.addLine (t : TileStats) (xs : List (SampleClass × Nat)) : TileStats := xs.foldl TileStats.add t

/-- The codes of a line as they are written (06 R124, R140). -/
def lineCodes (xs : List (SampleClass × Nat)) : List (BitVec 16) := xs.map (fun x => BitVec.ofNat 16 x.2)

/-- The codes at columns 0, 8, 16 and so on (06 R144). -/
def previewCodes (codes : List (BitVec 16)) : List (BitVec 16) :=
  (List.range (codes.length / 8)).map (fun i => codes.getD (8 * i) 0)

/-- A preview line is offered to a port (08 R193). -/
def State.offerPreview (s : State) (t : TileEntry) (y : Nat) (codes : List (BitVec 16)) (p : Port) : State :=
  if (s.port p).previewFlag = true ∧ (s.port p).covers t.slot = true then
    s.place p (.message { kind := .preview, code := .byte 0, tag := 0, status := none
                          body := .preview t.id t.slot y (previewCodes codes) })
  else s

/-- Steps 1 to 4 of R124 for line `y` of the head tile, then the burst rule (06 R124, 08 R187). -/
def State.lineMerged (s : State) (c : MergeContext) (p : CalParams) (t : TileEntry) : State :=
  let xs := s.mergedLine c p t
  let s1 := { s with pages := Memory.writeLine s.pages t.output c.width c.nextLine (lineCodes xs) }.modTile c.id (fun t =>
    { t with fill := c.nextLine + 1, stats := t.stats.map (fun (u : TileStats) => u.addLine xs) })
  let s2 :=
    if c.nextLine % 8 = 0 then
      ((s1.offerPreview t c.nextLine (lineCodes xs) .p0).offerPreview t c.nextLine (lineCodes xs) .p1).offerPreview
        t c.nextLine (lineCodes xs) .p2
    else s1
  s2.judgeTileBurst c.id

/-- The capture controller is told of a completed tile (03 R68). -/
def State.countCompleted (s : State) (tag : Nat) : State :=
  let s1 := s.modProgram tag (fun g =>
    { g with tilesInMerge := g.tilesInMerge - 1, tilesCompleted := g.tilesCompleted + 1 })
  match s1.program? tag with
  | none => s1
  | some g => if g.state = .merging ∧ g.tilesInMerge = 0 then s1.finishProgram tag else s1

/-- The head leaves the merge queue, and the next entry becomes head (06 R122). -/
def State.nextHead (s : State) : State :=
  match s.mergeQueue with
  | _ :: id :: rest => { s with mergeQueue := id :: rest, mergeContext := none }.beginMerge id
  | _ => { s with mergeQueue := [], mergeContext := none }

/-- The merge of a tile completes: steps 2 to 6 of R126. `t` is its entry. -/
def State.mergeCompleted (s : State) (t : TileEntry) : State :=
  let s2 := s.modTile t.id (fun t => { t with state := .complete, writer := false })
  let s3 := (s2.returnPages t.raws.flatten).modTile t.id (fun t => { t with raws := [] })
  let s4 := if t.reader = none then s3.turnEntry t.id .ready else s3
  let s5 := (((s4.sendTileReady t.id .p0).sendTileReady t.id .p1).sendTileReady t.id .p2).judgeTileBurst t.id
  (s5.countCompleted t.id.tag).nextHead

/-- LINE_EVENT (06 R124, R126). -/
def execLineEvent (s : State) : Host.Outcome State Fault Refusal :=
  match s.mergeContext, s.cal.params with
  | some c, some p =>
    match s.tile? c.id with
    | some t =>
      let s1 := s.fresh.lineMerged c p t
      if c.nextLine + 1 < c.height then
        .next { s1 with mergeContext := some { c with nextLine := c.nextLine + 1 } }
      else .next (s.fresh.settle (s1.mergeCompleted t))
    | none => .next s.fresh
  | _, _ => .next s.fresh

/-! ### The measurement of a margin (02 R42) -/

/-- The parameters of R42. -/
def marginDensity (r : Registration) (p : CalParams) : DensityParams :=
  { steps := [r.step], dark := p.dark, sat := r.saturation, floor := r.floor, rounding := .nearestEven
    mergeMode := .select, marking := false, fog := none }

/-- The samples of one line of the margin buffer, classed and coded (02 R42). -/
def marginLine (r : Registration) (p : CalParams) (l : List Sample) : List (SampleClass × Nat) :=
  l.zipIdx.map (fun (v, x) => density (marginDensity r p) (p.table.getD (r.offset + x) 0) [v.toNat])

/-- The final codes of the NORMAL samples of the margin buffer (02 R42). -/
def normalCodes (r : Registration) (p : CalParams) : List Nat :=
  ((r.buffer.flatMap (marginLine r p)).filter (fun x => decide (x.1 = .normal))).map (·.2)

/-- MEASUREMENT_END (02 R42, R43). -/
def execMeasurementEnd (s : State) : Host.Outcome State Fault Refusal :=
  match s.registration, s.cal.params with
  | some r, some p =>
    if r.phase = .measuring then
      let codes := normalCodes r p
      .next (s.fresh.settle
        (if 2048 ≤ codes.length then s.fresh.endRegistration r .read (some (codes.sum / codes.length)) codes.length
         else s.fresh.endRegistration r .unreadable none codes.length))
    else .next s.fresh
  | _, _ => .next s.fresh

end Sys2Proof.Machine
end

