-- ==== Sys2Proof/Machine/Plates.lean ====
section
/-! DEFINITION. The requests and posts of the plate table (01 R16 to R28) and of the staging unit (02 R44). Each command
takes the message at the head of the port's inbound queue; the operation named `State.…` beside it is its effect once the
message is taken. -/

namespace Sys2Proof.Machine

/-- A BAD_FIELD, which names the field by its offset in the payload (10 R217). -/
def State.badField (s : State) (p : Port) (m : Message) (offset : Nat) : State :=
  s.reply p m .badField (.number offset)

/-- A BUSY that carries no tile state and no port (10 R217). -/
def State.busyPlain (s : State) (p : Port) (m : Message) : State := s.reply p m .busy (.busy none none)

/-- The lowest-numbered FREE slot (01 R16). -/
def State.freeSlot (s : State) : Option Nat := s.plates.toList.findIdx? (fun r => r.isNone)

/-- A record that is not FREE holds the same accession (01 R16). -/
def State.hasAccession (s : State) (a : List Byte) : Bool :=
  s.plates.toList.any (fun r =>
    match r with
    | some pl => decide (pl.accession = a)
    | none => false)

/-- 1 to 16 bytes, each 21h to 7Eh (01 R1, R16). -/
def accessionGood (a : List Byte) : Bool :=
  decide (1 ≤ a.length) && decide (a.length ≤ 16) && a.all (fun b => decide (0x21 ≤ b.toNat) && decide (b.toNat ≤ 0x7E))

/-- The record of an entered plate (01 R16). -/
def enteredPlate (p : Port) (f : EnterFields) (size : SizeClass) (condition : Condition) (carrier : Bool) : Plate :=
  { state := .racked, accession := f.accession, sizeClass := size, condition := condition, carrier := carrier
    budget := f.budget, spent := 0, reservations := [], baseFog := none, marginResult := .noResult, note := f.note
    handlerPort := p, keeps := PortSet.none, programCount := 0, noticePending := none }

/-- The effect of PLATE_ENTER: the first failing check of R16 gives the reply. -/
def State.plateEnter (s : State) (p : Port) (m : Message) (f : EnterFields) : State :=
  match s.freeSlot with
  | none => s.reply p m .tableFull
  | some slot =>
    if s.hasAccession f.accession then s.reply p m .duplicate
    else if accessionGood f.accession = false then s.badField p m 0
    else
      match f.sizeClass, f.condition, f.carrier with
      | none, _, _ => s.badField p m 2
      | some _, none, _ => s.badField p m 3
      | some _, some _, none => s.badField p m 4
      | some size, some condition, some carrier =>
        if f.budget = 0 ∨ 4000000000 < f.budget then s.badField p m 6
        else if 64 < f.note.length then s.badField p m 1
        else (s.setPlate slot (some (enteredPlate p f size condition carrier))).reply p m .accepted (.slot slot)

/-- PLATE_ENTER (01 R16). -/
def execPlateEnter (p : Port) (s : State) : Host.Outcome State Fault Refusal :=
  .next (s.taking p (fun m r s1 =>
    match r with
    | .plateEnter f => some (s1.plateEnter p m f)
    | _ => none))

/-- The effect of READ_PLATE (01 R17). -/
def State.readPlate (s : State) (p : Port) (m : Message) (slot : Nat) : State :=
  match s.plate slot with
  | none => s.reply p m .unknownPlate
  | some pl => if pl.state = .registering then s.busyPlain p m else s.reply p m .ok (.plate slot pl)

/-- READ_PLATE (01 R17). -/
def execReadPlate (p : Port) (s : State) : Host.Outcome State Fault Refusal :=
  .next (s.taking p (fun m r s1 =>
    match r with
    | .readPlate slot => some (s1.readPlate p m slot)
    | _ => none))

/-- The effect of ANNOTATE (01 R18). -/
def State.annotate (s : State) (p : Port) (m : Message) (slot : Nat) (note : List Byte) : State :=
  match s.plate slot with
  | none => s.place p (postErrorTo m .unknownPlate slot)
  | some pl => s.setPlate slot (some { pl with note := note })

/-- ANNOTATE (01 R18). -/
def execAnnotate (p : Port) (s : State) : Host.Outcome State Fault Refusal :=
  .next (s.taking p (fun m r s1 =>
    match r with
    | .annotate slot note => some (s1.annotate p m slot note)
    | _ => none))

/-- The effect of RAISE_BUDGET (01 R19). -/
def State.raiseBudget (s : State) (p : Port) (m : Message) (slot budget : Nat) : State :=
  match s.plate slot with
  | none => s.reply p m .unknownPlate
  | some pl =>
    if pl.budget < budget ∧ budget ≤ 4000000000 then
      (s.setPlate slot (some { pl with budget := budget })).reply p m .ok
        (.budget budget pl.spent pl.reserved (budget - pl.spent - pl.reserved))
    else s.badField p m 2

/-- RAISE_BUDGET (01 R19). -/
def execRaiseBudget (p : Port) (s : State) : Host.Outcome State Fault Refusal :=
  .next (s.taking p (fun m r s1 =>
    match r with
    | .raiseBudget slot budget => some (s1.raiseBudget p m slot budget)
    | _ => none))

/-- The effect of RETIRE_PLATE: the first failing check of R20 gives the reply. -/
def State.retirePlate (s : State) (p : Port) (m : Message) (slot : Nat) : State :=
  match s.plate slot with
  | none => s.reply p m .unknownPlate
  | some pl =>
    if pl.state.onStage then s.reply p m .onStage
    else if pl.state = .called then s.reply p m .called
    else if pl.programCount ≠ 0 then s.reply p m .programsPending
    else (s.setPlate slot none).reply p m .ok

/-- RETIRE_PLATE (01 R20). -/
def execRetirePlate (p : Port) (s : State) : Host.Outcome State Fault Refusal :=
  .next (s.taking p (fun m r s1 =>
    match r with
    | .retirePlate slot => some (s1.retirePlate p m slot)
    | _ => none))

/-- The record of a plate whose placement is accepted: a pending CALL is cleared (01 R21, R22). -/
def Plate.placed (pl : Plate) (auto : Bool) : Plate :=
  { pl with state := if auto then .registering else .placed, noticePending := none }

/-- The effects of an accepted placement (01 R21, R22): a calibration in flight is interrupted, and under
auto-registration the registration starts (log 20). -/
def State.acceptPlacement (s : State) (slot : Nat) (pl : Plate) : State :=
  let s1 := (s.setPlate slot (some (pl.placed s.settings.autoRegistration))).interruptCalibration
  s.settle (if s.settings.autoRegistration then s1.startRegistration slot none else s1)

/-- The effect of PLATE_PLACED (01 R21). -/
def State.platePlaced (s : State) (p : Port) (m : Message) (slot : Nat) : State :=
  match s.plate slot with
  | none => s.place p (postErrorTo m .unknownPlate slot)
  | some pl =>
    if pl.state.onStage then s
    else if s.occupant ≠ none then s.place p (postErrorTo m .stageConflict slot)
    else s.acceptPlacement slot pl

/-- PLATE_PLACED (01 R21, R22). -/
def execPlatePlaced (p : Port) (s : State) : Host.Outcome State Fault Refusal :=
  .next (s.taking p (fun m r s1 =>
    match r with
    | .platePlaced slot => some (s1.platePlaced p m slot)
    | _ => none))

/-- The record of a plate that has left the stage (01 R23). -/
def Plate.removed (pl : Plate) : Plate := { pl with state := .racked, keeps := PortSet.none, noticePending := none }

/-- The removal is forced: the plate had a hold and was not RELEASING (01 R24). -/
def Plate.forcedRemoval (pl : Plate) : Bool := decide (pl.state ≠ .releasing) && pl.hasHold

/-- The registration in flight for a slot is aborted (01 R24, 02 R46). `pl` is the plate's record. -/
def State.abortFor (s : State) (slot : Nat) (pl : Plate) : State :=
  match s.registration with
  | some r => if r.slot = slot then s.abortRegistration r pl else s
  | none => s

/-- The effect of PLATE_REMOVED (01 R23, R24). -/
def State.plateRemoved (s : State) (p : Port) (m : Message) (slot : Nat) : State :=
  match s.plate slot with
  | none => s.place p (postErrorTo m .notOnStage slot)
  | some pl =>
    if pl.state.onStage then
      let s1 := s.setPlate slot (some pl.removed)
      s.settle (if pl.forcedRemoval then (s1.abortFor slot pl.removed).losePlate slot else s1)
    else s.place p (postErrorTo m .notOnStage slot)

/-- PLATE_REMOVED (01 R23, R24). -/
def execPlateRemoved (p : Port) (s : State) : Host.Outcome State Fault Refusal :=
  .next (s.taking p (fun m r s1 =>
    match r with
    | .plateRemoved slot => some (s1.plateRemoved p m slot)
    | _ => none))

/-- The effect of KEEP (01 R25). -/
def State.keep (s : State) (p : Port) (m : Message) (slot : Nat) : State :=
  match s.plate slot with
  | none => s.reply p m .notOnStage
  | some pl =>
    if pl.state = .releasing then s.reply p m .releasing
    else if pl.state.onStage then
      s.examineOnChange ((s.setPlate slot (some { pl with keeps := pl.keeps.put p true })).reply p m .ok
        (.keeps (pl.keeps.put p true)))
    else s.reply p m .notOnStage

/-- KEEP (01 R25). -/
def execKeep (p : Port) (s : State) : Host.Outcome State Fault Refusal :=
  .next (s.taking p (fun m r s1 =>
    match r with
    | .keep slot => some (s1.keep p m slot)
    | _ => none))

/-- The effect of UNKEEP (01 R26). -/
def State.unkeep (s : State) (p : Port) (m : Message) (slot : Nat) : State :=
  match s.plate slot with
  | none => s.reply p m .notOnStage
  | some pl =>
    if pl.state.onStage then
      s.examineOnChange ((s.setPlate slot (some { pl with keeps := pl.keeps.put p false })).reply p m .ok
        (.keeps (pl.keeps.put p false)))
    else s.reply p m .notOnStage

/-- UNKEEP (01 R26). -/
def execUnkeep (p : Port) (s : State) : Host.Outcome State Fault Refusal :=
  .next (s.taking p (fun m r s1 =>
    match r with
    | .unkeep slot => some (s1.unkeep p m slot)
    | _ => none))

/-- The effect of RELEASE_PLATE (01 R28). -/
def State.releasePlate (s : State) (p : Port) (m : Message) (slot : Nat) : State :=
  match s.plate slot with
  | none => s.reply p m .notOnStage
  | some pl =>
    if pl.state = .releasing then s.reply p m .granted
    else if pl.state.onStage then
      if pl.hasHold then
        s.reply p m .held (.held pl.keeps pl.programCount (decide (pl.state = .registering)))
      else s.examineOnChange ((s.setPlate slot (some { pl with state := .releasing })).reply p m .granted)
    else s.reply p m .notOnStage

/-- RELEASE_PLATE (01 R28). -/
def execReleasePlate (p : Port) (s : State) : Host.Outcome State Fault Refusal :=
  .next (s.taking p (fun m r s1 =>
    match r with
    | .releasePlate slot => some (s1.releasePlate p m slot)
    | _ => none))

/-- A program for the plate in a slot is RUNNING (02 R44). -/
def State.runningFor (s : State) (slot : Nat) : Bool :=
  match s.running with
  | some g => decide (g.content.slot = slot)
  | none => false

/-- The effects of an accepted REGISTER: the reply, then the registration's start and the examination that its reports
bring about (02 R44, R40, R32). -/
def State.acceptRegister (s : State) (p : Port) (m : Message) (slot : Nat) (pl : Plate) : State :=
  ((((s.setPlate slot (some { pl with state := .registering })).reply p m .accepted).startRegistration slot
    (some p)).examine.tryAllocation).offerUnit

/-- The effect of REGISTER: the first failing check of R44 gives the reply (02 R44). DESIGN CHOICE (log 30): a PLACED plate
that has a RUNNING program, lost and placed again while the last readout runs on, is refused with BUSY by row 4; the text
of R44 takes a PLACED plate without a condition. -/
def State.register (s : State) (p : Port) (m : Message) (slot : Nat) : State :=
  match s.plate slot with
  | none => s.reply p m .unknownPlate
  | some pl =>
    if pl.state.onStage = false then s.reply p m .notOnStage
    else if pl.state = .releasing then s.reply p m .releasing
    else if pl.state = .registering ∨ s.runningFor slot = true then s.busyPlain p m
    else s.acceptRegister p m slot pl

/-- REGISTER (02 R44). -/
def execRegister (p : Port) (s : State) : Host.Outcome State Fault Refusal :=
  .next (s.taking p (fun m r s1 =>
    match r with
    | .register slot => some (s1.register p m slot)
    | _ => none))

end Sys2Proof.Machine
end

