-- ==== Sys2Proof/Machine/Programs.lean ====
section
/-! DEFINITION. SUBMIT_PROGRAM (03 R49 to R56), CANCEL_PROGRAM (03 R69 to R71) and CALIBRATE (05 R108, R109). -/

namespace Sys2Proof.Machine

/-! ### The checks of a submission -/

/-- The extent of a plate in x and y (00 "Stage coordinates"). -/
def SizeClass.extent : SizeClass → Nat × Nat
  | .q => (10800, 8300)
  | .h => (16500, 12000)
  | .w => (21600, 16500)
  | .l => (40000, 30000)

/-- Strictly ascending steps. -/
def ascending : List Int → Bool
  | a :: b :: rest => decide (a < b) && ascending (b :: rest)
  | _ => true

/-- A bracket set is well formed (03 R51). -/
def BracketField.good (b : BracketField) : Bool :=
  decide (1 ≤ b.count) && decide (b.count ≤ 4) && b.steps.all (fun e => decide (-24 ≤ e) && decide (e ≤ 96)) &&
    ascending b.steps

/-- A tile descriptor is inside its ranges (03 R47, R52). -/
def TileDesc.good (d : TileDesc) (size : SizeClass) (brackets calWidth : Nat) : Bool :=
  decide (d.x ≤ (SizeClass.extent size).1) && decide (d.y ≤ (SizeClass.extent size).2) && decide (d.c0 ≤ 4032) &&
    decide (64 ≤ d.width) && decide (d.width ≤ 4096) && decide (d.width % 64 = 0) &&
    decide (16 ≤ d.height) && decide (d.height ≤ 4096) && decide (d.height % 16 = 0) &&
    decide (d.bracket < brackets) && decide (d.c0 + d.width ≤ calWidth)

/-- The header as accepted: every field has one of its values (03 R50). -/
structure HeaderNames where
  rounding : RoundingMode
  mergeMode : MergeMode
  marking : Bool
  baseSubtraction : Bool
  deriving DecidableEq, Repr

/-- The first header field outside its values, by its offset, or the named values of a good header (03 R50, 10 R217). -/
def SubmitFields.header (f : SubmitFields) : Nat ⊕ HeaderNames :=
  match f.rounding, f.mergeMode, f.marking, f.baseSubtraction with
  | none, _, _, _ => .inl 1
  | some _, none, _, _ => .inl 2
  | some _, some _, none, _ => .inl 3
  | some _, some _, some _, none => .inl 4
  | some a, some b, some c, some d =>
    if f.sat < 1024 ∨ 16383 < f.sat then .inl 8
    else if f.floor < 1 ∨ 4095 < f.floor then .inl 10
    else if f.bracketCount < 1 ∨ 4 < f.bracketCount then .inl 5
    else if f.tileCount < 1 ∨ 64 < f.tileCount then .inl 6
    else .inr { rounding := a, mergeMode := b, marking := c, baseSubtraction := d }

/-- The content of a submission whose header is good (03 R47, R48). -/
def SubmitFields.content (f : SubmitFields) (h : HeaderNames) : Submission :=
  { slot := f.slot, rounding := h.rounding, mergeMode := h.mergeMode, marking := h.marking
    baseSubtraction := h.baseSubtraction, sat := f.sat, floor := f.floor, brackets := f.brackets.map (·.steps)
    tiles := f.tiles }

/-- The refusals of a submission (03 R49). -/
inductive SubmitRefusal where
  | noPlate | queueFull | noCal
  | badField (offset : Nat)
  | badBracket (index : Nat)
  | badTile (index : Nat)
  | badExposure (index : Nat)
  | needsCarrier
  deriving DecidableEq, Repr

/-- Checks 1 to 8 of R49: the first that fails, or the plate, the calibration and the content. -/
def State.checkSubmit (s : State) (f : SubmitFields) : SubmitRefusal ⊕ (Plate × CalParams × Submission) :=
  match s.plate f.slot with
  | none => .inl .noPlate
  | some pl =>
    if 8 ≤ s.programs.length then .inl .queueFull
    else
      match s.cal.params with
      | none => .inl .noCal
      | some c =>
        match f.header with
        | .inl offset => .inl (.badField offset)
        | .inr h =>
          match f.brackets.findIdx? (fun b => !b.good) with
          | some k => .inl (.badBracket k)
          | none =>
            match f.tiles.findIdx? (fun d => !d.good pl.sizeClass f.bracketCount c.width) with
            | some k => .inl (.badTile k)
            | none =>
              match f.brackets.findIdx? (fun b => !stepsLegal c b.steps) with
              | some k => .inl (.badExposure k)
              | none =>
                if pl.condition = .cracked ∧ pl.carrier = false then .inl .needsCarrier
                else .inr (pl, c, f.content h)

/-- The reply to a refused submission (03 R49, 10.5). -/
def State.refuseSubmit (s : State) (p : Port) (m : Message) : SubmitRefusal → State
  | .noPlate => s.reply p m .noPlate
  | .queueFull => s.reply p m .queueFull
  | .noCal => s.reply p m .noCal
  | .badField offset => s.badField p m offset
  | .badBracket k => s.reply p m .badBracket (.number k)
  | .badTile k => s.reply p m .badTile (.number k)
  | .badExposure k => s.reply p m .badExposure (.number k)
  | .needsCarrier => s.reply p m .needsCarrier

/-! ### The tag -/

/-- The value after a tag, with 65535 followed by 1 (03 R56). -/
def nextTag (t : Nat) : Nat := if 65535 ≤ t then 1 else t + 1

/-- The tags that are held: of programs in the queue, of tile entries, of pending entries (03 R56). -/
def State.heldTags (s : State) : List Nat :=
  s.programs.map (·.tag) ++ s.directory.map (·.id.tag) ++ s.entries.map (·.tile.tag)

/-- The first candidate from `t` on that is not held; `k` bounds the search. -/
def firstFreeTag (held : List Nat) : Nat → Nat → Nat
  | 0, t => t
  | k + 1, t => if held.contains t then firstFreeTag held k (nextTag t) else t

/-- The tag for an accepted program (03 R56). Among one candidate more than there are held tags, one is free. -/
def State.chooseTag (s : State) : Nat := firstFreeTag s.heldTags s.heldTags.length s.tagCounter

/-! ### SUBMIT_PROGRAM -/

/-- The record of an accepted program (03 R48, R55). -/
def newProgram (tag : Nat) (p : Port) (content : Submission) (estimate : Nat) : Program :=
  { tag := tag, port := p, state := .queued, content := content, estimate := estimate, captureStep := none, nextTile := 0
    tilesInMerge := 0, tilesCompleted := 0, outcome := none, failingTile := none, refusedTile := none, doseCharged := 0
    doseReleased := none, generation := none, baseFogUsed := none }

/-- The effects of an accepted submission, in the order of R55; `pl` is the plate after the reserve. -/
def State.acceptSubmit (s : State) (p : Port) (m : Message) (pl : Plate) (content : Submission) (tag estimate : Nat) :
    State :=
  s.examineOnChange
    ({ s.setPlate content.slot (some pl) with
        programs := s.programs ++ [newProgram tag p content estimate], tagCounter := nextTag tag }.reply p m .accepted
      (.programAccepted tag estimate))

/-- The effect of SUBMIT_PROGRAM (03 R49, R55). -/
def State.submitProgram (s : State) (p : Port) (m : Message) (f : SubmitFields) : State :=
  match s.checkSubmit f with
  | .inl refusal => s.refuseSubmit p m refusal
  | .inr (pl, c, content) =>
    match pl.reserve s.chooseTag (estimateOf c content) with
    | none => s.reply p m .doseLimit (.dose (estimateOf c content) pl.remainder)
    | some pl' => s.acceptSubmit p m pl' content s.chooseTag (estimateOf c content)

/-- SUBMIT_PROGRAM (03 R49). -/
def execSubmitProgram (p : Port) (s : State) : Host.Outcome State Fault Refusal :=
  .next (s.taking p (fun m r s1 =>
    match r with
    | .submitProgram f => some (s1.submitProgram p m f)
    | _ => none))

/-! ### CANCEL_PROGRAM -/

/-- The reply OK to a cancel, with the tag and the outcome (03 R69 to R71). -/
def State.cancelReply (s : State) (p : Port) (m : Message) (tag : Nat) (o : ProgramOutcome) : State :=
  s.reply p m .ok (.programOutcome tag o)

/-- The cancel of a program that waits (03 R69): outcome, release, reply, withdrawal of the call, end (log 11). -/
def State.cancelWaiting (s : State) (p : Port) (m : Message) (g : Program) : State :=
  ((((s.fixOutcome g.tag .cancelled).releaseProgram g.tag).cancelReply p m g.tag .cancelled).withdrawCall
    g.content.slot).finishProgram g.tag

/-- The cancel of a RUNNING program whose outcome is not fixed (03 R70). -/
def State.cancelRunning (s : State) (p : Port) (m : Message) (g : Program) : State :=
  ((s.fixOutcome g.tag .cancelled).cancelReply p m g.tag .cancelled).giveUpTile g false

/-- The effect of CANCEL_PROGRAM (03 R69 to R71). -/
def State.cancelProgram (s : State) (p : Port) (m : Message) (tag : Nat) : State :=
  match s.program? tag with
  | none => s.reply p m .unknownProgram
  | some g =>
    match g.outcome with
    | some o => s.cancelReply p m tag o
    | none =>
      if g.state.waiting then s.settle (s.cancelWaiting p m g)
      else if g.state = .running then s.settle (s.cancelRunning p m g)
      else s.cancelReply p m tag .cancelled

/-- CANCEL_PROGRAM (03 R69 to R71). -/
def execCancelProgram (p : Port) (s : State) : Host.Outcome State Fault Refusal :=
  .next (s.taking p (fun m r s1 =>
    match r with
    | .cancelProgram tag => some (s1.cancelProgram p m tag)
    | _ => none))

/-! ### CALIBRATE -/

/-- A program is RUNNING or MERGING, or the merge queue holds a tile (05 R108). -/
def State.captureBusy (s : State) : Bool :=
  s.programs.any (fun g => decide (g.state = .running) || decide (g.state = .merging)) ||
    decide (s.mergeQueue ≠ [])

/-- The calibration context at acceptance (05 R109). -/
def newCalContext (p : Port) (tRef level width : Nat) : CalContext :=
  { phase := .dark, port := p, tRef := tRef, level := level, width := width, darkSum := 0, dark := none
    columnSums := List.replicate width 0, saturation := none }

/-- The effects of an accepted CALIBRATE (05 R109): the reply, then the move of the dark frame. -/
def State.acceptCalibrate (s : State) (p : Port) (m : Message) (k : CalContext) : State :=
  ({ s with calContext := some k }.reply p m .accepted (.calibration k.tRef k.level k.width)).startMove
    (calContextOf .calDark k)

/-- The effect of CALIBRATE: the first failing check of R108 gives the reply. -/
def State.calibrate (s : State) (p : Port) (m : Message) (tRef level width : Nat) : State :=
  if s.occupant ≠ none then s.reply p m .stageOccupied
  else if s.calContext ≠ none then s.busyPlain p m
  else if s.captureBusy then s.busyPlain p m
  else if s.unit.state ≠ .idle then s.busyPlain p m
  else if tRef < 100 ∨ 100000 < tRef then s.badField p m 0
  else if level < 1 ∨ 255 < level then s.badField p m 4
  else if width < 64 ∨ 4096 < width ∨ width % 64 ≠ 0 then s.badField p m 6
  else s.acceptCalibrate p m (newCalContext p tRef level width)

/-- CALIBRATE (05 R108, R109). -/
def execCalibrate (p : Port) (s : State) : Host.Outcome State Fault Refusal :=
  .next (s.taking p (fun m r s1 =>
    match r with
    | .calibrate tRef level width => some (s1.calibrate p m tRef level width)
    | _ => none))

end Sys2Proof.Machine
end

