-- ==== Sys2Proof/Machine/Requests.lean ====
section
/-! DEFINITION. The requests of a port and of the settings store: SET_WINDOW (08 R168), READ_SETTINGS, WRITE_SETTINGS
(09 R210), SET_PREVIEW (R211), QUERY_STATUS (R212), and the post PORT_RESET (R208). -/

namespace Sys2Proof.Machine

/-- The effect of SET_WINDOW (08 R168). -/
def State.setWindow (s : State) (p : Port) (m : Message) (base limit : Nat) : State :=
  (s.setPort p { s.port p with windowBase := min base 31, windowLimit := min limit 31 }).reply p m .ok
    (.window (min base 31) (min limit 31))

/-- SET_WINDOW (08 R168). -/
def execSetWindow (p : Port) (s : State) : Host.Outcome State Fault Refusal :=
  .next (s.taking p (fun m r s1 =>
    match r with
    | .setWindow base limit => some (s1.setWindow p m base limit)
    | _ => none))

/-- READ_SETTINGS (09 R210). -/
def execReadSettings (p : Port) (s : State) : Host.Outcome State Fault Refusal :=
  .next (s.taking p (fun m r s1 =>
    match r with
    | .readSettings => some (s1.reply p m .ok (.settings s1.settings))
    | _ => none))

/-- A value clamped to a range (00 "Ranges and rounding"). -/
def clampNat (lo hi v : Nat) : Nat := max lo (min v hi)

def clampInt (lo hi v : Int) : Int := max lo (min v hi)

/-- The settings record of written values, each clamped to its range (09 R209, R210). -/
def clampSettings (discard retry : Nat) (auto : Bool) (step : Int) (saturation floor offset : Nat) : Settings :=
  { discardTime := clampNat 10 10000 discard, retryLimit := clampNat 1 1024 retry, autoRegistration := auto
    marginStep := clampInt (-24) 96 step, marginSaturation := clampNat 1024 16383 saturation
    marginFloor := clampNat 1 4095 floor, marginOffset := clampNat 0 4032 offset }

/-- The effect of WRITE_SETTINGS: the whole record is replaced (09 R210). -/
def State.writeSettings (s : State) (p : Port) (m : Message) (record : Settings) : State :=
  { s with settings := record }.reply p m .ok (.settings record)

/-- WRITE_SETTINGS (09 R210). -/
def execWriteSettings (p : Port) (s : State) : Host.Outcome State Fault Refusal :=
  .next (s.taking p (fun m r s1 =>
    match r with
    | .writeSettings discard retry auto step saturation floor offset =>
      some (s1.writeSettings p m (clampSettings discard retry auto step saturation floor offset))
    | _ => none))

/-- The effect of SET_PREVIEW (09 R211). -/
def State.setPreview (s : State) (p : Port) (m : Message) (on : Bool) : State :=
  (s.setPort p { s.port p with previewFlag := on }).reply p m .ok (.flag on)

/-- SET_PREVIEW (09 R211). -/
def execSetPreview (p : Port) (s : State) : Host.Outcome State Fault Refusal :=
  .next (s.taking p (fun m r s1 =>
    match r with
    | .setPreview on => some (s1.setPreview p m on)
    | _ => none))

/-- The state of the calibration unit (05 R109): no context is IDLE. -/
def State.calState (s : State) : CalUnitState :=
  match s.calContext with
  | none => .idle
  | some k =>
    match k.phase with
    | .dark => .darkFrame
    | .light => .lightFrame

/-- The report of QUERY_STATUS to a port, of the state as it stands (09 R212). DESIGN CHOICE (log 29): the
outbound entries in use are those before the reply of the QUERY_STATUS itself is placed; the spec is silent on it. -/
def State.statusReport (s : State) (p : Port) : StatusReport :=
  { calState := s.calState
    generation := s.cal.generation
    cal := s.cal.params
    stage := s.occupant.map (fun i => (i, (s.plate i).map (·.state)))
    indicator := s.indicator
    unitState := s.unit.state
    mergeDepth := s.mergeQueue.length
    freePages := s.freePages.length
    entriesInUse := s.directory.length
    pendingEntries := s.entries.length
    link := (s.port p).link
    windowBase := (s.port p).windowBase
    windowLimit := (s.port p).windowLimit
    previewFlag := (s.port p).previewFlag
    upCount := (s.port p).upCount
    inboundDepth := (s.port p).inbound.length
    outboundInUse := (s.port p).outbound.length
    read := (s.port p).read
    ownPending := s.entries.countP (fun e => decide (e.port = p))
    ownFinished := s.programs.countP (fun g => decide (g.port = p) && decide (g.state = .finished))
    ownNotices := s.plates.toList.countP (fun r =>
      match r with
      | some pl => decide (pl.handlerPort = p) && pl.noticePending.isSome
      | none => false)
    programs := s.programs.map (fun g => (g.tag, g.state))
    running := s.running.map (fun g => (g.captureStep, g.nextTile)) }

/-- QUERY_STATUS (09 R212). The report is made before the reply is placed (DESIGN CHOICE, log 29). -/
def execQueryStatus (p : Port) (s : State) : Host.Outcome State Fault Refusal :=
  .next (s.taking p (fun m r s1 =>
    match r with
    | .queryStatus => some (s1.reply p m .ok (.status (s1.statusReport p)))
    | _ => none))

/-! ### PORT_RESET -/

/-- The port leaves the keep set of the stage occupant (01 R27). -/
def State.dropKeep (s : State) (p : Port) : State :=
  match s.occupant with
  | some i => s.modPlate i (fun pl => { pl with keeps := pl.keeps.put p false })
  | none => s

/-- The window and the preview flag take their reset values (08 R167, 09 R211). -/
def PortState.resetView (q : PortState) : PortState :=
  { q with windowBase := 0, windowLimit := 31, previewFlag := false }

/-- The FINISHED programs that the port submitted leave the queue without PROGRAM_DONE, in acceptance order (03 R76,
07 R160). -/
def State.dropFinished (s : State) (p : Port) : State :=
  ((s.programs.filter (fun g => decide (g.port = p) && decide (g.state = .finished))).map (·.tag)).foldl
    State.dropProgram s

/-- The effect of PORT_RESET, in the order of the table of R208 (log 24). -/
def State.portReset (s : State) (p : Port) : State :=
  let s1 := ((s.dropKeep p).endReadSilently p).dropEntries p
  s.serveFreed ((s1.setPort p (s1.port p).resetView).dropFinished p) p

/-- PORT_RESET (09 R208). -/
def execPortReset (p : Port) (s : State) : Host.Outcome State Fault Refusal :=
  .next (s.taking p (fun _ r s1 =>
    match r with
    | .portReset => some (s1.portReset p)
    | _ => none))

end Sys2Proof.Machine
end

