-- ==== Sys2Proof/Machine/Tiles.lean ====
section
/-! DEFINITION. The requests about tiles: DISCARD_TILE (07 R162), FETCH_TILE (08 R173, R174), OPEN_DRAIN (08 R184, R185)
and STOP_READ (08 R190). -/

namespace Sys2Proof.Machine

/-- A BUSY that carries the tile's state and, where the rule names one, a port (10 R217). -/
def State.busyTile (s : State) (p : Port) (m : Message) (t : TileEntry) (holder : Option Port) : State :=
  s.reply p m .busy (.busy (some t.state) holder)

/-- A tile that is not yet complete and has not failed. -/
def TileState.pending : TileState → Bool
  | .capturing | .mergeWait | .merging => true
  | .complete | .failed => false

/-! ### DISCARD_TILE -/

/-- The READY pending entry for a tile, of whichever port (07 R162). -/
def State.readyEntry (s : State) (id : TileId) : Option PendingEntry :=
  s.entries.find? (fun e => decide (e.tile = id) && decide (e.state = .ready))

/-- The effect of DISCARD_TILE: the first row of R162 that applies. -/
def State.discardTile (s : State) (p : Port) (m : Message) (id : TileId) : State :=
  match s.tile? id with
  | none => s.reply p m .unknownTile
  | some t =>
    match t.state with
    | .capturing | .mergeWait | .merging => s.busyTile p m t none
    | .complete =>
      match t.reader, s.readyEntry id with
      | some (holder, _), _ => s.busyTile p m t (some holder)
      | none, some e => s.busyTile p m t (some e.port)
      | none, none => s.settle (((s.returnPages t.output).removeTile id).reply p m .ok (.pages t.output.length))
    | .failed => s.settle ((s.removeTile id).reply p m .ok (.pages 0))

/-- DISCARD_TILE (07 R162). -/
def execDiscardTile (p : Port) (s : State) : Host.Outcome State Fault Refusal :=
  .next (s.taking p (fun m r s1 =>
    match r with
    | .discardTile id => some (s1.discardTile p m id)
    | _ => none))

/-! ### The opening of a read -/

/-- The store joins a reader (07 R157). -/
def State.joinReader (s : State) (id : TileId) (p : Port) (kind : ReadKind) (consume : Bool) : State :=
  s.modTile id (fun t => { t with reader := some (p, kind), consume := consume })

/-- A read is opened: the port holds it, and its stream entry stands at the tail of the list (08 R170, R174, R185). -/
def State.openRead (s : State) (p : Port) (r : Read) (reply : OutMessage) (first count : Nat) : State :=
  s.setPort p (PortState.push { s.port p with read := some r } (.stream
    { reply := some reply, tile := r.tile, tag := r.tag, first := first, count := count, close := none, isOpen := true }))

/-- The reply ACCEPTED that opens a read (10.5). -/
def openingReply (m : Message) (body : Body) : OutMessage :=
  { kind := .reply, code := m.code, tag := m.tag, status := some .accepted, body := body }

/-- The read that a fetch opens, its position already at the end (08 R174). -/
def fetchRead (m : Message) (t : TileEntry) (consume : Bool) : Read :=
  { tile := t.id, tag := m.tag, kind := .fetch, consume := consume, first := 0, endLine := t.height, mode := .freeRun
    threshold := none, position := t.height, delivered := 0, outcome := none, waitingClose := none }

/-- A fetch joins and streams the whole tile (08 R174). -/
def State.streamFetch (s : State) (p : Port) (m : Message) (t : TileEntry) (consume : Bool) : State :=
  (s.joinReader t.id p .fetch consume).openRead p (fetchRead m t consume)
    (openingReply m (.fetchAccepted t.id t.width t.height)) 0 t.height

/-! ### FETCH_TILE -/

/-- The slot a fetch or drain is judged against: the tile entry's, or that of the own entry (08 R167). -/
def judgedSlot (tile : Option TileEntry) (own : Option PendingEntry) : Option Nat :=
  match tile, own with
  | some t, _ => some t.slot
  | none, some e => some e.slot
  | none, none => none

/-- The state of an own entry, if there is one. -/
def ownState (own : Option PendingEntry) : Option EntryState := own.map (·.state)

/-- A WAITING entry is made (08 R175). -/
def State.makeEntry (s : State) (p : Port) (t : TileEntry) : State :=
  { s with entries := s.entries ++ [{ port := p, tile := t.id, slot := t.slot, state := .waiting, timer := none }] }

/-- Another port's entry for a tile that is READY or FAILED (08 R173, R184). -/
def State.otherHolding (s : State) (p : Port) (id : TileId) : Option PendingEntry :=
  s.entries.find? (fun e => decide (e.port ≠ p) && decide (e.tile = id) && decide (e.state ≠ .waiting))

/-- Rows 4 to 10 of R173: the tile is COMPLETE. -/
def State.fetchComplete (s : State) (p : Port) (m : Message) (t : TileEntry) (own : Option EntryState)
    (consume : Bool) : State :=
  if own = some .ready then
    if (s.port p).read.isSome then s.busyTile p m t (some p)
    else (s.removeEntry p t.id).streamFetch p m t consume
  else if own = some .waiting then s.reply p m .pending (.tileState t.state)
  else
    match t.reader, s.otherHolding p t.id with
    | some (holder, _), _ => s.busyTile p m t (some holder)
    | none, some e => s.busyTile p m t (some e.port)
    | none, none =>
      if (s.port p).read.isSome then s.busyTile p m t (some p) else s.streamFetch p m t consume

/-- Rows 11 to 15 of R173: the tile is not complete yet. -/
def State.fetchEarly (s : State) (p : Port) (m : Message) (t : TileEntry) (own : Option EntryState) : State :=
  if own = some .waiting then s.reply p m .pending (.tileState t.state)
  else if t.reader.map (·.1) = some p then s.busyTile p m t (some p)
  else
    match s.otherEntry p t.id with
    | some e => s.busyTile p m t (some e.port)
    | none =>
      if 8 ≤ s.entries.length then s.busyTile p m t none
      else (s.makeEntry p t).reply p m .pending (.tileState t.state)

/-- The effect of FETCH_TILE: the first row of R173 that applies. On a link that is DOWN it is discarded (09 R206). -/
def State.fetchTile (s : State) (p : Port) (m : Message) (id : TileId) (consume : Bool) : State :=
  if (s.port p).link = .down then s
  else
    match judgedSlot (s.tile? id) (s.ownEntry p id) with
    | none => s.reply p m .unknownTile
    | some slot =>
      if (s.port p).covers slot = false then s.reply p m .window
      else if ownState (s.ownEntry p id) = some .failed then (s.removeEntry p id).reply p m .failed
      else
        match s.tile? id with
        | none => s.reply p m .unknownTile
        | some t =>
          match t.state with
          | .failed => (s.removeEntry p id).reply p m .failed
          | .complete => s.fetchComplete p m t (ownState (s.ownEntry p id)) consume
          | .capturing | .mergeWait | .merging => s.fetchEarly p m t (ownState (s.ownEntry p id))

/-- FETCH_TILE (08 R173). -/
def execFetchTile (p : Port) (s : State) : Host.Outcome State Fault Refusal :=
  .next (s.taking p (fun m r s1 =>
    match r with
    | .fetchTile id consume => some (s1.fetchTile p m id consume)
    | _ => none))

/-! ### OPEN_DRAIN -/

/-- The threshold in force (08 R184). -/
def clampThreshold (t : Nat) : Nat := max 1 (min t 256)

/-- The count in force for a start line below the height (08 R184). -/
def clampCount (count start height : Nat) : Nat := if count ≠ 0 ∧ height < start + count then height - start else count

/-- The read that a drain opens (08 R185); `count` is the count in force. -/
def drainRead (m : Message) (t : TileEntry) (threshold count start : Nat) (consume : Bool) : Read :=
  { tile := t.id, tag := m.tag, kind := .drain, consume := consume, first := start
    endLine := if count = 0 then t.height else start + count, mode := if count = 0 then .freeRun else .count
    threshold := some threshold, position := start, delivered := 0, outcome := none, waitingClose := none }

/-- An accepted drain (08 R185): the own entry goes, the reader joins, the stream entry takes its place with the reply,
and the burst rule is judged. -/
def State.acceptDrain (s : State) (p : Port) (m : Message) (t : TileEntry) (threshold count start : Nat)
    (consume : Bool) : State :=
  (((s.removeEntry p t.id).joinReader t.id p .drain consume).openRead p (drainRead m t threshold count start consume)
    (openingReply m (.drainAccepted t.id t.width t.height t.state threshold count start)) start 0).judgeBurst p

/-- The effect of OPEN_DRAIN: the first row of R184 that applies. On a link that is DOWN it is discarded (09 R206). -/
def State.openDrain (s : State) (p : Port) (m : Message) (id : TileId) (threshold count start : Nat) (consume : Bool) :
    State :=
  if (s.port p).link = .down then s
  else
    match judgedSlot (s.tile? id) (s.ownEntry p id) with
    | none => s.reply p m .unknownTile
    | some slot =>
      if (s.port p).covers slot = false then s.reply p m .window
      else if ownState (s.ownEntry p id) = some .failed then (s.removeEntry p id).reply p m .failed
      else
        match s.tile? id with
        | none => s.reply p m .unknownTile
        | some t =>
          if t.state = .failed then (s.removeEntry p id).reply p m .failed
          else if t.height ≤ start then s.reply p m .badField (.number 8)
          else
            match t.reader, s.otherHolding p id with
            | some (holder, _), _ => s.busyTile p m t (some holder)
            | none, some e => s.busyTile p m t (some e.port)
            | none, none =>
              if (s.port p).read.isSome then s.busyTile p m t (some p)
              else s.acceptDrain p m t (clampThreshold threshold) (clampCount count start t.height) start consume

/-- OPEN_DRAIN (08 R184, R185). -/
def execOpenDrain (p : Port) (s : State) : Host.Outcome State Fault Refusal :=
  .next (s.taking p (fun m r s1 =>
    match r with
    | .openDrain id threshold count start consume => some (s1.openDrain p m id threshold count start consume)
    | _ => none))

/-! ### STOP_READ -/

/-- The stopped read's stream entry: one with its opening reply unsent keeps that reply and loses its run, any other
leaves the list (08 R190). -/
def PortState.stopStream (q : PortState) : PortState :=
  match q.stream? with
  | some e => if e.reply.isSome then q.modStream (fun x => { x with count := 0, isOpen := false }) else q.removeStream
  | none => q

/-- The closing record of a stopped read, with the slot and accession of its tile (08 R172, R190). -/
def State.stoppedRecord (s : State) (r : Read) : CloseRecord :=
  match s.tile? r.tile with
  | some t => closeRecord r t .stopped
  | none => { tile := r.tile, slot := 0, accession := [], outcome := .stopped, first := r.first, delivered := r.delivered
              stats := none }

/-- The closing record answers STOP_READ, with its tag, in the place of its reply (08 R190, 09 R196; log 12); the reader
is released (07 R158). -/
def State.stopRead (s : State) (p : Port) (m : Message) : State :=
  match (s.port p).read with
  | none => s.reply p m .noRead
  | some r =>
    let s1 := (s.setPort p { (s.port p).stopStream with read := none }).place p
      (.message (closeMessage m.tag (s.stoppedRecord r)))
    let s2 := match s.tile? r.tile with
      | some t => if t.reader = some (p, r.kind) then s1.releaseReader r.tile else s1
      | none => s1
    s.settle (s2.serveClaims p)

/-- STOP_READ (08 R190). -/
def execStopRead (p : Port) (s : State) : Host.Outcome State Fault Refusal :=
  .next (s.taking p (fun m r s1 =>
    match r with
    | .stopRead => some (s1.stopRead p m)
    | _ => none))

end Sys2Proof.Machine
end

