-- ==== Sys2Proof/Machine/Waiting.lean ====
section
/-! DEFINITION. The claims that wait for a free entry, each as a command of its own (09 R204), and the pending entries
that become READY or expire (08 R180, R181). The events that free an entry or release a reader perform the same
operations themselves (log 10). -/

namespace Sys2Proof.Machine

/-- The first claim that waits for a free entry is served, if `sel` asks for its kind (09 R204), and then what the removal
of a program's record brings about (07 R154). Where no such claim waits, nothing comes about (log 3). -/
def State.serveAlone (s : State) (p : Port) (sel : Claim → Bool) : State :=
  if (s.port p).canTake then
    match s.nextClaim p with
    | some c => if sel c then s.settle (s.serveClaim p c) else s
    | none => s
  else s

def Claim.isNotice : Claim → Bool
  | .plateNotice _ => true
  | _ => false

def Claim.isDone : Claim → Bool
  | .programDone _ => true
  | _ => false

def Claim.isFailedClose : Claim → Bool
  | .failedClose => true
  | _ => false

def Claim.isBurst : Claim → Bool
  | .burst => true
  | _ => false

/-- PENDING_NOTICE_ISSUE (02 R38). -/
def execPendingNoticeIssue (p : Port) (s : State) : Host.Outcome State Fault Refusal :=
  .next (s.fresh.serveAlone p Claim.isNotice)

/-- HELD_PROGRAM_DONE (03 R75). -/
def execHeldProgramDone (p : Port) (s : State) : Host.Outcome State Fault Refusal :=
  .next (s.fresh.serveAlone p Claim.isDone)

/-- FAILED_CLOSE_PLACE (08 R189). -/
def execFailedClosePlace (p : Port) (s : State) : Host.Outcome State Fault Refusal :=
  .next (s.fresh.serveAlone p Claim.isFailedClose)

/-- WAITING_BURST (08 R187). -/
def execWaitingBurst (p : Port) (s : State) : Host.Outcome State Fault Refusal :=
  .next (s.fresh.serveAlone p Claim.isBurst)

/-- ENTRY_READY (08 R181). -/
def execEntryReady (tile : TileId) (s : State) : Host.Outcome State Fault Refusal :=
  .next (s.fresh.entryTurnsReady tile)

/-- The READY or FAILED entry for a tile whose timer runs is removed (08 R180). -/
def State.expireEntry (s : State) (id : TileId) : State :=
  { s with entries := s.entries.filter (fun e => !(decide (e.tile = id) && e.timer.isSome)) }

/-- ENTRY_EXPIRY (08 R180). -/
def execEntryExpiry (tile : TileId) (s : State) : Host.Outcome State Fault Refusal :=
  .next (s.fresh.expireEntry tile)

end Sys2Proof.Machine
end

