-- ==== Sys2Proof/Machine/Dispatch.lean ====
section
/-! DEFINITION. The meaning of each command, arm by arm. -/

namespace Sys2Proof.Machine

def exec (i : Instr) (s : State) : Host.Outcome State Fault Refusal :=
  match i with
  | .reset => Sys2Proof.Machine.execReset s
  | .lock p => Sys2Proof.Machine.execLock p s
  | .lossOfLock p => Sys2Proof.Machine.execLossOfLock p s
  | .messageArrival p frame => Sys2Proof.Machine.execMessageArrival p frame s
  | .malformed p => Sys2Proof.Machine.execMalformed p s
  | .messageAccepted p => Sys2Proof.Machine.execMessageAccepted p s
  | .lineDelivered p => Sys2Proof.Machine.execLineDelivered p s
  | .plateEnter p => Sys2Proof.Machine.execPlateEnter p s
  | .readPlate p => Sys2Proof.Machine.execReadPlate p s
  | .annotate p => Sys2Proof.Machine.execAnnotate p s
  | .raiseBudget p => Sys2Proof.Machine.execRaiseBudget p s
  | .retirePlate p => Sys2Proof.Machine.execRetirePlate p s
  | .platePlaced p => Sys2Proof.Machine.execPlatePlaced p s
  | .plateRemoved p => Sys2Proof.Machine.execPlateRemoved p s
  | .keep p => Sys2Proof.Machine.execKeep p s
  | .unkeep p => Sys2Proof.Machine.execUnkeep p s
  | .releasePlate p => Sys2Proof.Machine.execReleasePlate p s
  | .register p => Sys2Proof.Machine.execRegister p s
  | .submitProgram p => Sys2Proof.Machine.execSubmitProgram p s
  | .cancelProgram p => Sys2Proof.Machine.execCancelProgram p s
  | .calibrate p => Sys2Proof.Machine.execCalibrate p s
  | .discardTile p => Sys2Proof.Machine.execDiscardTile p s
  | .fetchTile p => Sys2Proof.Machine.execFetchTile p s
  | .openDrain p => Sys2Proof.Machine.execOpenDrain p s
  | .stopRead p => Sys2Proof.Machine.execStopRead p s
  | .setWindow p => Sys2Proof.Machine.execSetWindow p s
  | .readSettings p => Sys2Proof.Machine.execReadSettings p s
  | .writeSettings p => Sys2Proof.Machine.execWriteSettings p s
  | .setPreview p => Sys2Proof.Machine.execSetPreview p s
  | .queryStatus p => Sys2Proof.Machine.execQueryStatus p s
  | .portReset p => Sys2Proof.Machine.execPortReset p s
  | .pendingNoticeIssue p => Sys2Proof.Machine.execPendingNoticeIssue p s
  | .allocationGrant => Sys2Proof.Machine.execAllocationGrant s
  | .workHandover => Sys2Proof.Machine.execWorkHandover s
  | .doneAnswer seq => Sys2Proof.Machine.execDoneAnswer seq s
  | .movingAnswer seq => Sys2Proof.Machine.execMovingAnswer seq s
  | .busyAnswer seq => Sys2Proof.Machine.execBusyAnswer seq s
  | .faultAnswer seq => Sys2Proof.Machine.execFaultAnswer seq s
  | .answerTimerExpiry => Sys2Proof.Machine.execAnswerTimerExpiry s
  | .busyWaitExpiry => Sys2Proof.Machine.execBusyWaitExpiry s
  | .lampTimerExpiry => Sys2Proof.Machine.execLampTimerExpiry s
  | .line take number count samples check => Sys2Proof.Machine.execLine take number count samples check s
  | .sensorError take => Sys2Proof.Machine.execSensorError take s
  | .lineTimerExpiry => Sys2Proof.Machine.execLineTimerExpiry s
  | .measurementEnd => Sys2Proof.Machine.execMeasurementEnd s
  | .lineEvent => Sys2Proof.Machine.execLineEvent s
  | .heldProgramDone p => Sys2Proof.Machine.execHeldProgramDone p s
  | .waitingBurst p => Sys2Proof.Machine.execWaitingBurst p s
  | .failedClosePlace p => Sys2Proof.Machine.execFailedClosePlace p s
  | .entryReady tile => Sys2Proof.Machine.execEntryReady tile s
  | .entryExpiry tile => Sys2Proof.Machine.execEntryExpiry tile s

end Sys2Proof.Machine
end

