-- ==== Sys2Proof/Safety.lean ====
section
/-! DEFINITION. What the part must keep at every step: the invariants that the statements are about, and the words the
statements use. -/

namespace Sys2Proof.Machine

/-! ### Invariants -/

/-- The stage occupant and the do-not-remove indicator are the ones the plate records give (01 R4, R6). -/
def StageTrue (s : State) : Prop := s.occupant = stageSlot s.plates ∧ s.indicator = indicatorLevel s.plates

/-- Spent plus reserved does not exceed the budget (01 R9). -/
def Plate.withinBudget (pl : Plate) : Prop := pl.spent + pl.reserved ≤ pl.budget

/-- Every entered plate is within its budget (01 R9). -/
def DoseKept (s : State) : Prop := ∀ slot pl, s.plate slot = some pl → pl.withinBudget

/-- The lamp gate is open only while the exposure unit is EXPOSING (04 R83). -/
def GateKept (s : State) : Prop := s.lamp.gateOpen = true → s.unit.state = .exposing

/-- A port's queue and lists are within their sizes (09 R198, R202). -/
def PortState.bounded (q : PortState) : Prop :=
  q.inbound.length ≤ 16 ∧ q.retry.length ≤ 16 ∧ q.outbound.length ≤ 64

/-- The ports' queues and lists (09 R198, R202), the program queue (03 R58), the tile directory (07 R149) and the pending
fetch table (08 R176) are within their sizes. The merge queue and the reservation lists: `MergeRoom`, `ReservationsKept`. -/
def QueuesKept (s : State) : Prop :=
  (∀ p, (s.port p).bounded) ∧ s.programs.length ≤ 8 ∧ s.directory.length ≤ 128 ∧ s.entries.length ≤ 8

/-- The merge queue is within its size, and it has a place for the tile that is on its way there (03 R62, 06 R121). -/
structure MergeRoom (s : State) : Prop where
  /-- At most 4 tiles are in the merge queue (06 R120). -/
  queue : s.mergeQueue.length ≤ 4
  /-- No program in a counted state stands before one that is in a capture step: only the head program captures
  (03 R58, R62). -/
  order : s.programs.Pairwise (fun a b => b.captureStep ≠ none → a.state.counted = false)
  /-- The space of a tile is asked for only while the queue holds fewer than 4 (03 R62). -/
  asked : s.allocWaiting ≠ none → s.mergeQueue.length < 4
  /-- A tile that has its space finds a place in the queue (06 R121). -/
  coming : ∀ g ∈ s.programs, g.captureStep = some .unitWait ∨ g.captureStep = some .inUnit → s.mergeQueue.length < 4

/-- The reservation list of a plate has one entry for each of some programs of the plate in a counted state (01 R1, R7). -/
def ReservationsKept (s : State) : Prop :=
  ∀ slot pl, s.plate slot = some pl → (pl.reservations.map (·.tag)).Nodup ∧
    ∀ r ∈ pl.reservations, ∃ g ∈ s.programs, g.tag = r.tag ∧ g.content.slot = slot ∧ g.state.counted = true

/-- The bytes of the pages stand in the one canonical form (log 8). -/
def PagesCanonical (s : State) : Prop := Memory.wf s.pages = true

/-- The generation counts from 0 to 4,294,967,295, and the other fields of the calibration record are absent exactly while
it is 0 (05 R106). -/
def CalKept (s : State) : Prop := s.cal.generation ≤ 4294967295 ∧ (s.cal.generation = 0 ↔ s.cal.params = none)

/-- At most one plate is in a stage state (01 R4), and the plate of a registration in flight is REGISTERING (02 R31, R40). -/
def OneOnStage (s : State) : Prop :=
  (∀ i j a b, s.plate i = some a → s.plate j = some b → a.state.onStage = true → b.state.onStage = true → i = j) ∧
  (∀ r, s.registration = some r → ∃ pl, s.plate r.slot = some pl ∧ pl.state = .registering)

/-- Each of the 4096 pages stands in exactly one place: on the free list, or in one chain of one tile entry (07 R146,
R147). -/
def PagesPlaced (s : State) : Prop :=
  (s.freePages ++ (s.directory.flatMap TileEntry.chains).flatten).Perm (List.range 4096)

/-- The tile entries agree with the programs that make them: what the tile store, the capture controller and the exposure
unit hold of the tile in hand is one tile, and no tile entry is made twice. -/
structure TilesAgree (s : State) : Prop where
  /-- A tile id names one entry (07 R149). -/
  ids : (s.directory.map (·.id)).Nodup
  /-- A FAILED tile holds no chains (07 R159). -/
  failed : ∀ t ∈ s.directory, t.state = .failed → t.output = [] ∧ t.raws = []
  /-- A COMPLETE tile holds no raw chains (06 R126). -/
  complete : ∀ t ∈ s.directory, t.state = .complete → t.raws = []
  /-- A tag names one program (03 R56). -/
  tags : (s.programs.map (·.tag)).Nodup
  /-- The tag counter counts from 1 to 65535 (03 R56). -/
  counter : 1 ≤ s.tagCounter ∧ s.tagCounter ≤ 65535
  /-- A program that waits for its start has no tile entries (03 R61). -/
  waiting : ∀ g ∈ s.programs, g.state.waiting = true → ∀ t ∈ s.directory, t.id.tag ≠ g.tag
  /-- A capture step is that of a RUNNING program, whose tile entries go up to its next tile (03 R48, R62). -/
  current : ∀ g ∈ s.programs, g.captureStep ≠ none → g.state = .running ∧
    ∀ t ∈ s.directory, t.id.tag = g.tag → t.id.index ≤ g.nextTile
  /-- In STORE_WAIT the next tile has no entry yet (03 R62). -/
  asking : ∀ g ∈ s.programs, g.captureStep = some .storeWait →
    ∀ t ∈ s.directory, t.id.tag = g.tag → t.id.index < g.nextTile
  /-- The waiting request is for the next tile of a program in STORE_WAIT (07 R152, R154). -/
  request : ∀ r, s.allocWaiting = some r → ∃ g ∈ s.programs, g.captureStep = some .storeWait ∧ r.id.tag = g.tag ∧
    r.id.index = g.nextTile
  /-- The tile in the exposure unit, not in disposal, is the next tile of a program in IN_UNIT (03 R63, 04 R79). -/
  unitTile : ∀ c id, s.unit.context = some c → c.kind = .tile id → c.disposal = false → ∃ g ∈ s.programs,
    g.captureStep = some .inUnit ∧ id.tag = g.tag ∧ id.index = g.nextTile
  /-- Disposal is a readout (04 R98). -/
  disposal : ∀ c, s.unit.context = some c → c.disposal = true → s.unit.state = .readout
  /-- An IDLE unit holds no work (04 R79). -/
  idle : s.unit.state = .idle → s.unit.context = none

/-- A state that a run may pass through. -/
def Safe (s : State) : Prop :=
  StageTrue s ∧ OneOnStage s ∧ DoseKept s ∧ GateKept s ∧ QueuesKept s ∧ MergeRoom s ∧ ReservationsKept s ∧
  PagesPlaced s ∧ TilesAgree s ∧ PagesCanonical s ∧ CalKept s

/-! ### Words of the statements -/

/-- Port `p` may take a message, and `m` is the one at the head of its inbound queue, with `rest` behind it (09 R199). -/
abbrev Waits (s : State) (p : Port) (m : Message) (rest : List Message) : Prop :=
  (s.port p).mayTake = true ∧ (s.port p).inbound = m :: rest

/-- The message that port `p` takes next is the well-formed request or post `r` (09 R199 to R201). -/
abbrev Asks (s : State) (p : Port) (m : Message) (rest : List Message) (r : Request) : Prop :=
  Waits s p m rest ∧ readMessage m = .request r

/-- The state once the message is taken and nothing else has come about: the queue holds the rest (09 R199). -/
def State.taken (s : State) (p : Port) (rest : List Message) : State :=
  s.fresh.setPort p { s.port p with inbound := rest }

/-- What a byte of a message read at a place of named values gives (10 R214, R215): a byte given by name is that value, one
given by number is a value with that byte value, and one that names no value is none. -/
def ReadsName {α : Type} (wrap : α → Name) (o : Octet) (r : Option α) : Prop :=
  (∀ v, o = .name (wrap v) → r = some v) ∧ (o = .unnamed → r = none) ∧
  ∀ b, o = .byte b → (∀ v, r = some v → Config.nameByte (wrap v) = b) ∧ (r = none → ∀ v, Config.nameByte (wrap v) ≠ b)

/-- A payload holds the bytes `f` from offset `o` on (10.3 to 10.9). -/
def HoldsField (payload : List Octet) (o : Nat) (f : List Octet) : Prop := (payload.drop o).take f.length = f

/-- A payload is `n` bytes long and holds each of the fields at its offset (10.3 to 10.9). -/
def HoldsFields (payload : List Octet) (n : Nat) (fields : List (Nat × List Octet)) : Prop :=
  payload.length = n ∧ ∀ f ∈ fields, HoldsField payload f.1 f.2

/-- Two states differ in the ports and in what was sent alone. -/
def OnlyPorts (s t : State) : Prop := t = { s with ports := t.ports, sent := t.sent }

/-- Every port but `p` stands as it was. -/
def OtherPortsKept (p : Port) (s t : State) : Prop := ∀ q, q ≠ p → t.port q = s.port q

/-- A plate in `slot` for which the exposure unit holds TILE work `id`: the unit's context, the exposure in hand, the
program and the plate's record. -/
structure TileInHand (s : State) (c : ExposureContext) (e : Exposure) (id : TileId) (g : Program) (pl : Plate) : Prop where
  context : s.unit.context = some c
  exposure : c.exposure? = some e
  kind : c.kind = .tile id
  program : s.program? id.tag = some g
  plate : s.plate g.content.slot = some pl

end Sys2Proof.Machine
end

