-- ==== Sys2Proof/WellFormed.lean ====
section
/-! DEFINITION. Which commands are well formed: what the links and timers can bring. A command's message is judged when
it is taken, not here (09 R201). -/

namespace Sys2Proof

/-- A tile id that a program can have: a tag from 1 to 65535 and an index below 64 (00 "Ports, slots, tags", 03 R47). -/
def TileId.wf (t : TileId) : Bool := decide (1 ≤ t.tag) && decide (t.tag ≤ 65535) && decide (t.index < 64)

/-- A frame is at most as long as the longest outbound or inbound message, 8252 bytes with its check (10.2). -/
def Frame.wf (f : Frame) : Bool := decide (f.bytes.length ≤ 8252)

/-- A LINE carries as many samples as it says (04 R90; log 22). -/
def lineWf (count : BitVec 16) (samples : List Sample) : Bool := decide (samples.length = count.toNat)

/-- The checks on the operands of each command. -/
def Instr.wf (i : Instr) : Bool :=
  match i with
  | .reset => true
  | .lock _ => true
  | .lossOfLock _ => true
  | .messageArrival _ f => f.wf
  | .malformed _ => true
  | .messageAccepted _ => true
  | .lineDelivered _ => true
  | .plateEnter _ => true
  | .readPlate _ => true
  | .annotate _ => true
  | .raiseBudget _ => true
  | .retirePlate _ => true
  | .platePlaced _ => true
  | .plateRemoved _ => true
  | .keep _ => true
  | .unkeep _ => true
  | .releasePlate _ => true
  | .register _ => true
  | .submitProgram _ => true
  | .cancelProgram _ => true
  | .calibrate _ => true
  | .discardTile _ => true
  | .fetchTile _ => true
  | .openDrain _ => true
  | .stopRead _ => true
  | .setWindow _ => true
  | .readSettings _ => true
  | .writeSettings _ => true
  | .setPreview _ => true
  | .queryStatus _ => true
  | .portReset _ => true
  | .pendingNoticeIssue _ => true
  | .allocationGrant => true
  | .workHandover => true
  | .doneAnswer _ => true
  | .movingAnswer _ => true
  | .busyAnswer _ => true
  | .faultAnswer _ => true
  | .answerTimerExpiry => true
  | .busyWaitExpiry => true
  | .lampTimerExpiry => true
  | .line _ _ count samples _ => lineWf count samples
  | .sensorError _ => true
  | .lineTimerExpiry => true
  | .measurementEnd => true
  | .lineEvent => true
  | .heldProgramDone _ => true
  | .waitingBurst _ => true
  | .failedClosePlace _ => true
  | .entryReady t => t.wf
  | .entryExpiry t => t.wf

end Sys2Proof
end

