-- ==== Sys2Proof/Certificates/Slice0/Obligations.lean ====
section
/-! DEFINITION. The statements for the provers. -/

open Sys2Proof Sys2Proof.Machine

/-! ### The queue of commands -/

/-- The step takes the command at the front of the queue and runs it with the queue's rest (the model's queue, log 1). -/
def Obligations.StepRunsFrontCommand : Prop :=
  ∀ (c : Instr) (rest : List Instr) (s : State), s.pending = c :: rest → step s = exec c { s with pending := rest }

/-! ### Reset and invariants -/

/-- RESET: every block in the reset state of its chapter. The page bytes (log 8), `sent` (log 14) and the waiting
commands (log 9) are the model's. -/
def Obligations.ResetLeavesResetState : Prop :=
  ∀ s : State, ∃ t, exec .reset s = .next t ∧ t.pending = s.pending ∧
    (∀ i, t.plate i = none) ∧ t.occupant = none ∧ t.indicator = false ∧ t.registration = none ∧
    t.programs = [] ∧ t.tagCounter = 1 ∧
    t.unit.state = .idle ∧ t.unit.context = none ∧ t.unit.moveSeq = 0 ∧ t.unit.takeNumber = 0 ∧ t.unit.timer = .stopped ∧
    t.lamp.level = 0 ∧ t.lamp.gateOpen = false ∧
    t.cal.generation = 0 ∧ t.cal.params = none ∧ t.calContext = none ∧
    t.mergeQueue = [] ∧ t.mergeContext = none ∧
    t.freePages = List.range 4096 ∧ t.directory = [] ∧ t.allocWaiting = none ∧ t.entries = [] ∧
    (∀ p, (t.port p).link = .down ∧ (t.port p).upCount = 0 ∧ (t.port p).inbound = [] ∧ (t.port p).retry = [] ∧
      (t.port p).outbound = [] ∧ (t.port p).windowBase = 0 ∧ (t.port p).windowLimit = 31 ∧
      (t.port p).previewFlag = false ∧ (t.port p).read = none) ∧
    t.settings = { discardTime := 500, retryLimit := 64, autoRegistration := true, marginStep := 0
                   marginSaturation := 16000, marginFloor := 64, marginOffset := 0 }

/-- The state after reset meets every invariant. -/
def Obligations.ResetStateIsSafe : Prop := Safe State.reset

/-- At every step the stage occupant and the indicator stay those that the plate records give, and at most one plate is in
a stage state; the plate of a registration in flight stays REGISTERING. In such a state the indicator is lit exactly when
some plate in a stage state has a keep or a program or is REGISTERING, and the occupant is exactly the slot whose plate is
in a stage state. -/
def Obligations.StepKeepsIndicatorTrue : Prop :=
  (∀ s t : State, StageTrue s → step s = .next t → StageTrue t) ∧
  (∀ s t : State, StageTrue s → OneOnStage s → step s = .next t → OneOnStage t) ∧
  ∀ s : State, StageTrue s →
    let onStage := fun (pl : Plate) =>
      pl.state = .placed ∨ pl.state = .registering ∨ pl.state = .staged ∨ pl.state = .releasing
    (s.indicator = true ↔ ∃ slot pl, s.plate slot = some pl ∧ onStage pl ∧
      ((∃ p, pl.keeps.has p = true) ∨ 0 < pl.programCount ∨ pl.state = .registering)) ∧
    (s.occupant = none ↔ ∀ slot pl, s.plate slot = some pl → ¬ onStage pl) ∧
    (OneOnStage s → ∀ slot, s.occupant = some slot ↔ ∃ pl, s.plate slot = some pl ∧ onStage pl)

/-- At every step, for every plate record, spent plus reserved never exceeds budget. -/
def Obligations.StepKeepsDoseWithinBudget : Prop := ∀ s t : State, DoseKept s → step s = .next t → DoseKept t

/-- At every step the lamp gate is open only while the exposure unit is EXPOSING. -/
def Obligations.StepKeepsGateShutOutsideExposure : Prop := ∀ s t : State, GateKept s → step s = .next t → GateKept t

/-- At every step the ports' queues and lists, the program queue, the tile directory and the pending fetch table stay
within their sizes; so does the merge queue (at most 4), with a place in it for the tile on its way there; and so do the
reservation lists (at most 8), whose entries stay those of programs of their plates in counted states. -/
def Obligations.StepKeepsQueuesBounded : Prop :=
  (∀ s t : State, QueuesKept s → step s = .next t → QueuesKept t) ∧
  ∀ s t : State, MergeRoom s → ReservationsKept s → TilesAgree s → QueuesKept s → step s = .next t →
    MergeRoom t ∧ ReservationsKept t ∧ ∀ slot pl, t.plate slot = some pl → pl.reservations.length ≤ 8

/-- At every step each of the 4096 pages stands in exactly one place, on the free list or in one chain of one tile entry,
and the tile entries stay in agreement with the programs that make them; the page memory keeps its canonical form (the
model's own, log 8). -/
def Obligations.StepKeepsPagesCanonical : Prop :=
  (∀ s t : State, PagesCanonical s → step s = .next t → PagesCanonical t) ∧
  (∀ s t : State, PagesPlaced s → TilesAgree s → QueuesKept s → step s = .next t → PagesPlaced t) ∧
  ∀ s t : State, TilesAgree s → QueuesKept s → step s = .next t → TilesAgree t

/-- At every step the fields of the calibration record are absent exactly while the generation is 0, and the generation
stays within its 32 bits. -/
def Obligations.StepKeepsCalibrationRecordWhole : Prop := ∀ s t : State, CalKept s → step s = .next t → CalKept t

/-! ### What only some commands change -/

/-- The link state and the UP count of a port change only at its LOCK, at its LOSS_OF_LOCK and at RESET. -/
def Obligations.LinkChangesOnlyAtLock : Prop :=
  ∀ (c : Instr) (p : Port) (s t : State), c ≠ .lock p → c ≠ .lossOfLock p → c ≠ .reset → exec c s = .next t →
    (t.port p).link = (s.port p).link ∧ (t.port p).upCount = (s.port p).upCount

/-- The settings record changes only at a WRITE_SETTINGS and at RESET, and the calibration record only at a LINE (the
last good line of a light frame) and at RESET. -/
def Obligations.SettingsAndCalibrationChangeOnlyWhereStated : Prop :=
  ∀ (c : Instr) (s t : State), c ≠ .reset → exec c s = .next t →
    ((∀ p, c ≠ .writeSettings p) → t.settings = s.settings) ∧
    ((∀ take number count samples check, c ≠ .line take number count samples check) → t.cal = s.cal)

/-- The bytes of the pages change only at a LINE and at a LINE_EVENT (and, in the model, at RESET): every other command
stores nothing. -/
def Obligations.PagesChangeOnlyAtLines : Prop :=
  ∀ (c : Instr) (s t : State), c ≠ .reset → c ≠ .lineEvent →
    (∀ take number count samples check, c ≠ .line take number count samples check) → exec c s = .next t →
    ∀ a, Memory.read t.pages a = Memory.read s.pages a

/-- While a slot is not FREE, its plate keeps its accession, its description and its handler port; its budget and its
spent dose never fall. -/
def Obligations.PlateIdentityAndDoseNeverFall : Prop :=
  ∀ (c : Instr) (s t : State) (slot : Nat) (pl pl' : Plate), c ≠ .reset → exec c s = .next t →
    s.plate slot = some pl → t.plate slot = some pl' →
    pl'.accession = pl.accession ∧ pl'.sizeClass = pl.sizeClass ∧ pl'.condition = pl.condition ∧
    pl'.carrier = pl.carrier ∧ pl'.handlerPort = pl.handlerPort ∧ pl.budget ≤ pl'.budget ∧ pl.spent ≤ pl'.spent

/-- READ_PLATE, READ_SETTINGS, QUERY_STATUS, SET_WINDOW, SET_PREVIEW, MALFORMED and MESSAGE_ARRIVAL of a port change
nothing but that port. A port takes no message while its link is UP and its outbound list full, while its queue is empty,
or by the command of a message other than the oldest of its queue: that command of a request, of a post or MALFORMED then
changes nothing (a command whose event cannot occur: log 3). -/
def Obligations.PortRequestsTouchOnlyTheirPort : Prop :=
  (∀ (c : Instr) (p : Port) (s t : State),
    (c = .readPlate p ∨ c = .readSettings p ∨ c = .queryStatus p ∨ c = .setWindow p ∨ c = .setPreview p ∨
      c = .malformed p ∨ ∃ f, c = .messageArrival p f) →
    exec c s = .next t → OnlyPorts s t ∧ OtherPortsKept p s t) ∧
  ∀ (s : State) (p : Port) (c : Instr) (own : Taken → Prop),
    (c, own) ∈ [
      (Instr.plateEnter p, fun x => ∃ f, x = Taken.request (.plateEnter f)),
      (.readPlate p, fun x => ∃ i, x = .request (.readPlate i)),
      (.annotate p, fun x => ∃ i note, x = .request (.annotate i note)),
      (.raiseBudget p, fun x => ∃ i n, x = .request (.raiseBudget i n)),
      (.retirePlate p, fun x => ∃ i, x = .request (.retirePlate i)),
      (.platePlaced p, fun x => ∃ i, x = .request (.platePlaced i)),
      (.plateRemoved p, fun x => ∃ i, x = .request (.plateRemoved i)),
      (.keep p, fun x => ∃ i, x = .request (.keep i)),
      (.unkeep p, fun x => ∃ i, x = .request (.unkeep i)),
      (.releasePlate p, fun x => ∃ i, x = .request (.releasePlate i)),
      (.register p, fun x => ∃ i, x = .request (.register i)),
      (.submitProgram p, fun x => ∃ f, x = .request (.submitProgram f)),
      (.cancelProgram p, fun x => ∃ tag, x = .request (.cancelProgram tag)),
      (.calibrate p, fun x => ∃ t l w, x = .request (.calibrate t l w)),
      (.discardTile p, fun x => ∃ id, x = .request (.discardTile id)),
      (.fetchTile p, fun x => ∃ id consume, x = .request (.fetchTile id consume)),
      (.openDrain p, fun x => ∃ id t k l consume, x = .request (.openDrain id t k l consume)),
      (.stopRead p, fun x => x = .request .stopRead),
      (.setWindow p, fun x => ∃ base limit, x = .request (.setWindow base limit)),
      (.readSettings p, fun x => x = .request .readSettings),
      (.writeSettings p, fun x => ∃ d r a m u f o, x = .request (.writeSettings d r a m u f o)),
      (.setPreview p, fun x => ∃ on, x = .request (.setPreview on)),
      (.queryStatus p, fun x => x = .request .queryStatus),
      (.portReset p, fun x => x = .request .portReset),
      (.malformed p, fun x => x = .malformedRequest ∨ x = .malformedPost ∨ x = .discarded)] →
    ((s.port p).link = .up ∧ 64 ≤ (s.port p).outbound.length) ∨ (s.port p).inbound = [] ∨
      (∃ m rest, (s.port p).inbound = m :: rest ∧ ¬ own (readMessage m)) →
    exec c s = .next s.fresh

/-! ### Links and lists -/

/-- An entry goes to the tail of a list whose link is UP and that holds fewer than 64 entries; otherwise it is dropped. -/
def Obligations.EntryGoesToTailOrIsDropped : Prop :=
  ∀ (s : State) (p : Port) (e : OutEntry),
    ((s.port p).link = .up → (s.port p).outbound.length < 64 →
      ((s.place p e).port p).outbound = (s.port p).outbound ++ [e] ∧
      (s.place p e) = { s with ports := (s.place p e).ports } ∧ OtherPortsKept p s (s.place p e)) ∧
    ((s.port p).link = .down ∨ 64 ≤ (s.port p).outbound.length → s.place p e = s)

/-- LOCK: on a link that is DOWN it becomes UP, the UP count rises by one, and the held items claim free entries; on a link
that is UP it changes nothing. LOSS_OF_LOCK: the link becomes DOWN, the read ends, the port's pending entries go, the
retry list is emptied, and the inbound queue, the window, the preview flag and the UP count stay; on a link that is DOWN
it changes nothing. The read's stream entry leaves the list and the others stay; the reader is released (its consume field
is then the model's, log 27), and a WAITING entry of another port turns READY as at an ENTRY_READY (log 10). -/
def Obligations.LinkGoesUpAndDown : Prop :=
  (∀ (s : State) (p : Port),
    ((s.port p).link = .down → ∃ t, exec (.lock p) s = .next t ∧
      t = s.fresh.serveFreed (s.fresh.setPort p { s.port p with link := .up, upCount := (s.port p).upCount + 1 }) p ∧
      (t.port p).link = .up ∧ (t.port p).upCount = (s.port p).upCount + 1) ∧
    ((s.port p).link = .up → exec (.lock p) s = .next s.fresh)) ∧
  (∀ (s : State) (p : Port),
    ((s.port p).link = .up → ∃ t, exec (.lossOfLock p) s = .next t ∧
      (t.port p).link = .down ∧ (t.port p).retry = [] ∧ (t.port p).read = none ∧ (t.port p).sending = .idle ∧
      (∀ e ∈ t.entries, e.port ≠ p) ∧
      (t.port p).inbound = (s.port p).inbound ∧ (t.port p).upCount = (s.port p).upCount ∧
      (t.port p).windowBase = (s.port p).windowBase ∧ (t.port p).windowLimit = (s.port p).windowLimit ∧
      (t.port p).previewFlag = (s.port p).previewFlag ∧ t.plates = s.plates ∧ t.programs = s.programs) ∧
    ((s.port p).link = .down → exec (.lossOfLock p) s = .next s.fresh) ∧
    ((s.port p).link = .up →
      let u := { s.fresh with entries := s.entries.filter (fun e => decide (e.port ≠ p)) }
      let q := { s.port p with link := .down, retry := [], sending := .idle, read := none }
      ((s.port p).read = none → exec (.lossOfLock p) s = .next (u.setPort p q)) ∧
      (∀ r, (s.port p).read = some r →
        let v := u.setPort p { q with outbound := (s.port p).outbound.filter (fun e => !e.isOpenStream) }
        (∀ t, s.tile? r.tile = some t → t.reader = some (p, r.kind) →
          exec (.lossOfLock p) s = exec (.entryReady r.tile) { v with directory := s.directory.map (fun x =>
            if x.id = r.tile then { x with reader := none, consume := false } else x) }) ∧
        ((∀ t, s.tile? r.tile = some t → t.reader ≠ some (p, r.kind)) → exec (.lossOfLock p) s = .next v))))

/-- MESSAGE_ARRIVAL on an UP link: a checked message joins the tail of an inbound queue of fewer than 16, is noted in the
retry list when the queue holds 16 and the list fewer, and is discarded otherwise; a frame that fails its check is
discarded. A link that is DOWN delivers nothing (log 19). A frame given by numbers passes its check exactly when its length
is 8 + payload length + 4, the payload length is at most 8240 and its last four bytes, least significant first, are the
check over the bytes before them; the message carried is then that of the header and the payload. -/
def Obligations.ArrivalQueuesRefusesOrDiscards : Prop :=
  (∀ (s : State) (p : Port) (f : Frame),
    ((s.port p).link = .up → frameAccepted f = true → (s.port p).inbound.length < 16 →
      exec (.messageArrival p f) s =
        .next (s.fresh.setPort p { s.port p with inbound := (s.port p).inbound ++ [frameMessage f] })) ∧
    ((s.port p).link = .up → frameAccepted f = true → 16 ≤ (s.port p).inbound.length →
      (s.port p).retry.length < 16 → ∃ t, exec (.messageArrival p f) s = .next t ∧
      (t.port p).retry = (s.port p).retry ++
        [{ tag := (frameMessage f).tag, code := (frameMessage f).code, kind := (frameMessage f).kind }] ∧
      (t.port p).inbound = (s.port p).inbound ∧ (t.port p).outbound = (s.port p).outbound ∧
      OnlyPorts s t ∧ OtherPortsKept p s t) ∧
    ((s.port p).link = .up → frameAccepted f = true → 16 ≤ (s.port p).inbound.length →
      16 ≤ (s.port p).retry.length → exec (.messageArrival p f) s = .next s.fresh) ∧
    ((s.port p).link = .down ∨ frameAccepted f = false → exec (.messageArrival p f) s = .next s.fresh)) ∧
  (∀ (bs : List Byte) (c0 c1 c2 c3 : Byte), 8 ≤ bs.length →
    let f : Frame := { bytes := (bs ++ [c0, c1, c2, c3]).map .byte }
    let length := (bs.getD 4 0).toNat + 256 * (bs.getD 5 0).toNat
    (frameAccepted f = true ↔ bs.length = 8 + length ∧ length ≤ 8240 ∧
      c0.toNat + 256 * (c1.toNat + 256 * (c2.toNat + 256 * c3.toNat)) = (crc32 bs).toNat) ∧
    (frameAccepted f = true → frameMessage f =
      { kind := .byte (bs.getD 0 0), code := .byte (bs.getD 1 0)
        tag := BitVec.ofNat 16 ((bs.getD 2 0).toNat + 256 * (bs.getD 3 0).toNat)
        status := BitVec.ofNat 16 ((bs.getD 6 0).toNat + 256 * (bs.getD 7 0).toNat)
        payload := (bs.drop 8).map .byte })) ∧
  crc32 [0x31, 0x32, 0x33, 0x34, 0x35, 0x36, 0x37, 0x38, 0x39] = 0xCBF43926

/-- MALFORMED: a malformed REQ is answered by a REPLY of status MALFORMED, a malformed POST by a POST_ERROR of error
MALFORMED with slot 0, and a message of an outbound kind or of no kind is discarded. A REQ or a POST is malformed exactly
when its code is none of its kind's, its payload length is not the one of its code, one of its reserved bytes is not zero,
or its status is not zero; the lengths and the reserved bytes of every code are written out, and so are the fields of every
payload at their offsets. A byte of a named value is read as that value; the numbers behind names are free (log 4). -/
def Obligations.MalformedMessageIsAnswered : Prop :=
  (∀ (s : State) (p : Port) (m : Message) (rest : List Message), Waits s p m rest →
    (readMessage m = .malformedRequest →
      exec (.malformed p) s = .next ((s.taken p rest).reply p m .malformed .empty)) ∧
    (readMessage m = .malformedPost →
      exec (.malformed p) s = .next ((s.taken p rest).place p (.message
        { kind := .notice, code := .name (.code .postError), tag := m.tag, status := none
          body := .postError .malformed m.code 0 }))) ∧
    (readMessage m = .discarded → exec (.malformed p) s = .next (s.taken p rest))) ∧
  (∀ m : Message,
    let good := fun (c : Code) => readCode m.code = some c ∧ lengthHolds c m.payload = true ∧
      reservedHold c m.payload = true ∧ m.status = 0
    (readKindByte m.kind = some .req →
      (readMessage m = .malformedRequest ↔ ∀ c ∈ requestCodes, ¬ good c) ∧
      (∀ r, readMessage m = .request r ↔ ∃ c ∈ requestCodes, good c ∧ readRequest c m.payload = some r)) ∧
    (readKindByte m.kind = some .post →
      (readMessage m = .malformedPost ↔ ∀ c ∈ postCodes, ¬ good c) ∧
      (∀ r, readMessage m = .request r ↔ ∃ c ∈ postCodes, good c ∧ readRequest c m.payload = some r)) ∧
    (readKindByte m.kind ≠ some .req → readKindByte m.kind ≠ some .post → readMessage m = .discarded)) ∧
  (∀ p : List Octet,
    let byte := fun i => (octetByte (octetAt p i)).toNat
    let word := fun i => byte i + 256 * byte (i + 1)
    let signed := fun i => (octetByte (octetAt p i)).toInt
    let bytes := fun i n => ((p.drop i).take n).map octetByte
    (∀ c n, (c, n) ∈ [(Code.readPlate, 2), (.retirePlate, 2), (.keep, 2), (.unkeep, 2), (.releasePlate, 2),
        (.register, 2), (.platePlaced, 2), (.plateRemoved, 2), (.raiseBudget, 6), (.cancelProgram, 2), (.setWindow, 2),
        (.setPreview, 2), (.discardTile, 4), (.fetchTile, 6), (.calibrate, 8), (.openDrain, 12), (.writeSettings, 12),
        (.stopRead, 0), (.readSettings, 0), (.queryStatus, 0), (.portReset, 0)] →
      (lengthHolds c p = true ↔ p.length = n)) ∧
    (lengthHolds .annotate p = true ↔ 2 ≤ p.length ∧ p.length ≤ 66) ∧
    (lengthHolds .plateEnter p = true ↔ 10 ≤ p.length ∧ p.length = 10 + byte 0 + byte 1) ∧
    (lengthHolds .submitProgram p = true ↔ 12 ≤ p.length ∧ p.length = 12 + 6 * byte 5 + 12 * byte 6) ∧
    (∀ c i, (c, i) ∈ [(Code.plateEnter, 5), (.fetchTile, 5), (.openDrain, 11), (.readPlate, 1), (.retirePlate, 1),
        (.keep, 1), (.unkeep, 1), (.releasePlate, 1), (.register, 1), (.platePlaced, 1), (.plateRemoved, 1),
        (.raiseBudget, 1), (.annotate, 1), (.setPreview, 1)] → (reservedHold c p = true ↔ byte i = 0)) ∧
    (∀ c ∈ [Code.cancelProgram, .discardTile, .calibrate, .stopRead, .setWindow, .readSettings, .writeSettings,
        .queryStatus, .portReset], reservedHold c p = true) ∧
    (reservedHold .submitProgram p = true ↔ byte 7 = 0 ∧
      (∀ k, k < byte 5 → byte (12 + 6 * k + 1) = 0 ∧
        ∀ j, j < 4 → byte (12 + 6 * k) ≤ j → byte (12 + 6 * k + 2 + j) = 0) ∧
      (∀ k, k < byte 6 → byte (12 + 6 * byte 5 + 12 * k + 11) = 0)) ∧
    readRequest .raiseBudget p = some (.raiseBudget (byte 0) (word 2 + 65536 * word 4)) ∧
    readRequest .cancelProgram p = some (.cancelProgram (word 0)) ∧
    readRequest .calibrate p = some (.calibrate (word 0 + 65536 * word 2) (word 4) (word 6)) ∧
    readRequest .fetchTile p = some (.fetchTile { tag := word 0, index := word 2 } (decide (byte 4 ≠ 0))) ∧
    readRequest .openDrain p = some
      (.openDrain { tag := word 0, index := word 2 } (word 4) (word 6) (word 8) (decide (byte 10 ≠ 0))) ∧
    readRequest .setWindow p = some (.setWindow (byte 0) (byte 1)) ∧
    readRequest .writeSettings p = some
      (.writeSettings (word 0) (word 2) (decide (byte 4 ≠ 0)) (signed 5) (word 6) (word 8) (word 10)) ∧
    readRequest .setPreview p = some (.setPreview (decide (byte 0 ≠ 0))) ∧
    readRequest .readPlate p = some (.readPlate (byte 0)) ∧ readRequest .retirePlate p = some (.retirePlate (byte 0)) ∧
    readRequest .keep p = some (.keep (byte 0)) ∧ readRequest .unkeep p = some (.unkeep (byte 0)) ∧
    readRequest .releasePlate p = some (.releasePlate (byte 0)) ∧ readRequest .register p = some (.register (byte 0)) ∧
    readRequest .platePlaced p = some (.platePlaced (byte 0)) ∧
    readRequest .plateRemoved p = some (.plateRemoved (byte 0)) ∧
    readRequest .discardTile p = some (.discardTile { tag := word 0, index := word 2 }) ∧
    readRequest .annotate p = some (.annotate (byte 0) (bytes 2 (p.length - 2))) ∧
    readRequest .stopRead p = some .stopRead ∧ readRequest .readSettings p = some .readSettings ∧
    readRequest .queryStatus p = some .queryStatus ∧ readRequest .portReset p = some .portReset ∧
    (∃ f, readRequest .plateEnter p = some (.plateEnter f) ∧
      f.accession = bytes 10 (byte 0) ∧ f.note = bytes (10 + byte 0) (byte 1) ∧ f.budget = word 6 + 65536 * word 8 ∧
      ReadsName .sizeClass (octetAt p 2) f.sizeClass ∧ ReadsName .condition (octetAt p 3) f.condition ∧
      ReadsName .carrier (octetAt p 4) f.carrier) ∧
    (∃ f, readRequest .submitProgram p = some (.submitProgram f) ∧
      f.slot = byte 0 ∧ ReadsName .rounding (octetAt p 1) f.rounding ∧ ReadsName .mergeMode (octetAt p 2) f.mergeMode ∧
      ReadsName .marking (octetAt p 3) f.marking ∧ ReadsName .baseSubtraction (octetAt p 4) f.baseSubtraction ∧
      f.bracketCount = byte 5 ∧ f.tileCount = byte 6 ∧ f.sat = word 8 ∧ f.floor = word 10 ∧
      f.brackets = (List.range (byte 5)).map (fun k =>
        { count := byte (12 + 6 * k)
          steps := (List.range (min 4 (byte (12 + 6 * k)))).map (fun j => signed (12 + 6 * k + 2 + j)) }) ∧
      f.tiles = (List.range (byte 6)).map (fun k =>
        let o := 12 + 6 * byte 5 + 12 * k
        { x := word o, y := word (o + 2), c0 := word (o + 4), width := word (o + 6), height := word (o + 8)
          bracket := byte (o + 10) })))

/-- MESSAGE_ACCEPTED: the oldest RETRY_LATER, or the first message of the entry at the front, leaves; an entry leaves
with its last message; then the claims for a free entry are served and the next message begins. What the link is in the
middle of sending is the model's field (log 13). A frame is laid out as header, payload and check, the check's four bytes
least significant first; the bytes of names are the model's free values (log 4). The payload of every outbound message
holds its fields at their offsets: the replies of 10.5, the plate record of 10.6, the tile data of 10.7 and the notices of
10.8 here, the status report of 10.9 in the statement about QUERY_STATUS. -/
def Obligations.AcceptedMessageLeaves : Prop :=
  (∀ (s : State) (p : Port), (s.port p).link = .up →
    (∀ r retry, (s.port p).sending = .retryLater → (s.port p).retry = r :: retry →
      exec (.messageAccepted p) s = .next (s.fresh.serveFreed
        ((s.fresh.setPort p { s.port p with retry := retry, sending := .idle }).emit (.frame p (frameOf
          { kind := .reply, code := r.code, tag := r.tag, status := some .retryLater, body := .empty }))) p)) ∧
    (∀ m rest, (s.port p).sending = .entry → (s.port p).outbound = .message m :: rest →
      exec (.messageAccepted p) s = .next (s.fresh.serveFreed
        ((s.fresh.setPort p { s.port p with outbound := rest, sending := .idle }).emit (.frame p (frameOf m))) p)) ∧
    (∀ e m rest, (s.port p).sending = .entry → (s.port p).outbound = .stream e :: rest → e.reply = some m →
      0 < e.count ∨ e.close ≠ none →
      exec (.messageAccepted p) s = .next (s.fresh.serveFreed
        ((s.fresh.setPort p { s.port p with outbound := .stream { e with reply := none } :: rest, sending := .idle }).emit
          (.frame p (frameOf m))) p)) ∧
    (∀ e m rest, (s.port p).sending = .entry → (s.port p).outbound = .stream e :: rest → e.reply = some m →
      e.count = 0 → e.close = none →
      exec (.messageAccepted p) s = .next (s.fresh.serveFreed
        ((s.fresh.setPort p { s.port p with outbound := rest, sending := .idle }).emit (.frame p (frameOf m))) p)) ∧
    (∀ e m rest, (s.port p).sending = .entry → (s.port p).outbound = .stream e :: rest → e.reply = none →
      e.count = 0 → e.close = some m →
      exec (.messageAccepted p) s = .next (s.fresh.serveFreed
        ((s.fresh.setPort p { s.port p with outbound := rest, sending := .idle }).emit (.frame p (frameOf m))) p))) ∧
  (∀ m : OutMessage,
    let low := fun (k v : Nat) => Octet.byte (BitVec.ofNat 8 (v / 256 ^ k))
    let n := (bodyOctets m.body).length
    let content := [.name (.kind m.kind), m.code, low 0 m.tag.toNat, low 1 m.tag.toNat, low 0 n, low 1 n] ++
      (match m.status with
        | some st => [.name (.statusLow st), .name (.statusHigh st)]
        | none => [.byte 0, .byte 0]) ++ bodyOctets m.body
    let check := (crc32 (content.map octetByte)).toNat
    (frameOf m).bytes = content ++ [low 0 check, low 1 check, low 2 check, low 3 check]) ∧
  (let byte := fun (v : Nat) => Octet.byte (BitVec.ofNat 8 v)
   let u8 := fun (v : Nat) => [byte v]
   let u16 := fun (v : Nat) => [byte v, byte (v / 256)]
   let u32 := fun (v : Nat) => [byte v, byte (v / 256), byte (v / 65536), byte (v / 16777216)]
   let name := fun (n : Name) => [Octet.name n]
   let flag := fun (b : Bool) => u8 (if b then 1 else 0)
   let ports := fun (k : PortSet) => u8 ((if k.p0 then 1 else 0) + (if k.p1 then 2 else 0) + (if k.p2 then 4 else 0))
   let port := fun (p : Port) => u8 (match p with | .p0 => 0 | .p1 => 1 | .p2 => 2)
   let tile := fun (t : TileId) => u16 t.tag ++ u16 t.index
   let area := fun (a : List Byte) => ((a ++ List.replicate 16 0).take 16).map Octet.byte
   bodyOctets .empty = [] ∧
   (∀ i, HoldsFields (bodyOctets (.slot i)) 2 [(0, u8 i), (1, u8 0)]) ∧
   (∀ b s v r, HoldsFields (bodyOctets (.budget b s v r)) 16 [(0, u32 b), (4, u32 s), (8, u32 v), (12, u32 r)]) ∧
   (∀ k, HoldsFields (bodyOctets (.keeps k)) 2 [(0, ports k), (1, u8 0)]) ∧
   (∀ k n f, HoldsFields (bodyOctets (.held k n f)) 4 [(0, ports k), (1, u8 n), (2, flag f), (3, u8 0)]) ∧
   (∀ t e, HoldsFields (bodyOctets (.programAccepted t e)) 8 [(0, u16 t), (2, u16 0), (4, u32 e)]) ∧
   (∀ t o, HoldsFields (bodyOctets (.programOutcome t o)) 4 [(0, u16 t), (2, name (.programOutcome o)), (3, u8 0)]) ∧
   (∀ t l w, HoldsFields (bodyOctets (.calibration t l w)) 8 [(0, u32 t), (4, u16 l), (6, u16 w)]) ∧
   (∀ n, HoldsFields (bodyOctets (.pages n)) 2 [(0, u16 n)]) ∧
   (∀ t w h, HoldsFields (bodyOctets (.fetchAccepted t w h)) 8 [(0, tile t), (4, u16 w), (6, u16 h)]) ∧
   (∀ st, HoldsFields (bodyOctets (.tileState st)) 2 [(0, name (.tileState st)), (1, u8 0)]) ∧
   (∀ t w h st th k l, HoldsFields (bodyOctets (.drainAccepted t w h st th k l)) 16
     [(0, tile t), (4, u16 w), (6, u16 h), (8, name (.tileState st)), (9, u8 0), (10, u16 th), (12, u16 k),
      (14, u16 l)]) ∧
   (∀ b l, HoldsFields (bodyOctets (.window b l)) 2 [(0, u8 b), (1, u8 l)]) ∧
   (∀ f, HoldsFields (bodyOctets (.flag f)) 2 [(0, flag f), (1, u8 0)]) ∧
   (∀ t : Settings, HoldsFields (bodyOctets (.settings t)) 12
     [(0, u16 t.discardTime), (2, u16 t.retryLimit), (4, flag t.autoRegistration),
      (5, [.byte (BitVec.ofInt 8 t.marginStep)]), (6, u16 t.marginSaturation), (8, u16 t.marginFloor),
      (10, u16 t.marginOffset)]) ∧
   (∀ v, HoldsFields (bodyOctets (.number v)) 2 [(0, u16 v)]) ∧
   (∀ e r, HoldsFields (bodyOctets (.dose e r)) 8 [(0, u32 e), (4, u32 r)]) ∧
   (∀ st p, HoldsFields (bodyOctets (.busy st p)) 4
     [(0, flag st.isSome), (1, st.elim (u8 0) (fun t => name (.tileState t))), (2, flag p.isSome),
      (3, p.elim (u8 0) port)]) ∧
   (∀ (slot : Nat) (pl : Plate),
     let r := pl.reservations.length
     let p := bodyOctets (.plate slot pl)
     HoldsFields p (32 + 8 * r + pl.accession.length + pl.note.length)
       [(0, u8 slot), (1, name (.plateState (some pl.state))), (2, name (.sizeClass pl.sizeClass)),
        (3, name (.condition pl.condition)), (4, name (.carrier pl.carrier)), (5, name (.marginResult pl.marginResult)),
        (6, port pl.handlerPort), (7, ports pl.keeps), (8, u8 pl.programCount),
        (9, name (.noticePending (match pl.noticePending with
          | none => none
          | some (.call _) => some .call
          | some (.ret _) => some .ret))),
        (10, flag pl.baseFog.isSome), (11, u8 r), (12, u8 pl.accession.length), (13, u8 pl.note.length),
        (14, u16 (pl.baseFog.getD 0)), (16, u32 pl.budget), (20, u32 pl.spent),
        (24, u32 (pl.reservations.map (·.remaining)).sum),
        (28, u32 (pl.budget - pl.spent - (pl.reservations.map (·.remaining)).sum)),
        (32 + 8 * r, pl.accession.map Octet.byte), (32 + 8 * r + pl.accession.length, pl.note.map Octet.byte)] ∧
     ∀ k x, pl.reservations[k]? = some x → HoldsField p (32 + 8 * k) (u16 x.tag ++ u16 0 ++ u32 x.remaining)) ∧
   (∀ t y cs, HoldsFields (bodyOctets (.line t y cs)) (8 + 2 * cs.length)
       [(0, tile t), (4, u16 y), (6, u16 cs.length)] ∧
     ∀ (k : Nat) (v : BitVec 16), cs[k]? = some v → HoldsField (bodyOctets (.line t y cs)) (8 + 2 * k) (u16 v.toNat)) ∧
   (∀ t i y cs, HoldsFields (bodyOctets (.preview t i y cs)) (10 + 2 * cs.length)
       [(0, tile t), (4, u8 i), (5, u8 0), (6, u16 y), (8, u16 cs.length)] ∧
     ∀ (k : Nat) (v : BitVec 16), cs[k]? = some v →
       HoldsField (bodyOctets (.preview t i y cs)) (10 + 2 * k) (u16 v.toNat)) ∧
   (∀ r : CloseRecord,
     HoldsFields (bodyOctets (.close r)) 72
       [(0, tile r.tile), (4, u8 r.slot), (5, name (.closeOutcome r.outcome)), (6, flag r.stats.isSome),
        (7, u8 r.accession.length), (8, u16 r.first), (10, u16 r.delivered), (12, area r.accession)] ∧
     (r.stats = none → HoldsField (bodyOctets (.close r)) 28 (List.replicate 44 (.byte 0))) ∧
     ∀ x, r.stats = some x → ∀ f ∈ [(0, u32 x.normalCount), (4, u32 x.underCount), (8, u32 x.overCount),
       (12, u32 x.gapCount), (16, u32 x.negCount), (20, u32 x.ceilCount), (24, u16 (x.least.getD 0)),
       (26, u16 (x.greatest.getD 0)), (28, u16 (x.baseFog.getD 0)), (30, flag x.least.isSome),
       (31, flag x.baseFog.isSome), (32, x.rounding.elim (u8 0) (fun v => name (.rounding v))),
       (33, x.mergeMode.elim (u8 0) (fun v => name (.mergeMode v))), (34, u16 0), (36, u32 (x.generation.getD 0)),
       (40, u32 x.dose)], HoldsField (bodyOctets (.close r)) (28 + f.1) f.2) ∧
   (∀ e c i, HoldsFields (bodyOctets (.postError e c i)) 4 [(0, name (.postError e)), (1, [c]), (2, u8 i), (3, u8 0)]) ∧
   (∀ i sz cd ca a t, HoldsFields (bodyOctets (.callPlate i sz cd ca a t)) 24
     [(0, u8 i), (1, name (.sizeClass sz)), (2, name (.condition cd)), (3, name (.carrier ca)), (4, u8 a.length),
      (5, u8 0), (6, u16 t), (8, area a)]) ∧
   (∀ i a w, HoldsFields (bodyOctets (.returnPlate i a w)) 20
     [(0, u8 i), (1, u8 a.length), (2, u8 w), (3, u8 0), (4, area a)]) ∧
   (∀ i a, HoldsFields (bodyOctets (.callWithdrawn i a)) 20 [(0, u8 i), (1, u8 a.length), (2, u16 0), (4, area a)]) ∧
   (∀ i a o f n d, HoldsFields (bodyOctets (.regDone i a o f n d)) 28
     [(0, u8 i), (1, name (.regOutcome o)), (2, flag f.isSome), (3, u8 a.length), (4, u16 (f.getD 0)), (6, u16 n),
      (8, u32 d), (12, area a)]) ∧
   (∀ o g t l w dk c wv least, HoldsFields (bodyOctets (.calDone o g t l w dk c wv least)) 28
     [(0, name (.calOutcome o)), (1, u8 l), (2, flag dk.isSome), (3, flag c.isSome), (4, flag wv.isSome),
      (5, flag least.isSome), (6, u16 w), (8, u32 t), (12, u32 g), (16, u16 (dk.getD 0)), (18, u16 (c.getD 0)),
      (20, u16 (wv.getD 0)), (22, u16 (least.elim 0 (·.1))), (24, u16 (least.elim 0 (·.2))), (26, u16 0)]) ∧
   (∀ t i a w h f d, HoldsFields (bodyOctets (.tileReady t i a w h f d)) 32
     [(0, tile t), (4, u8 i), (5, name (.entryFlag f)), (6, u8 a.length), (7, u8 0), (8, u16 w), (10, u16 h),
      (12, u16 d), (14, u16 0), (16, area a)]) ∧
   (∀ t i o done residue f rf charged released g,
     HoldsFields (bodyOctets (.programDone t i o done residue f rf charged released g)) 28
     [(0, u16 t), (2, u8 i), (3, o.elim (u8 0) (fun v => name (.programOutcome v))), (4, u8 done), (5, u8 residue),
      (6, flag f.isSome), (7, flag rf.isSome), (8, flag g.isSome), (9, u8 0), (10, u16 (f.elim 0 (·.1))),
      (12, u16 (rf.getD 0)), (14, u16 (f.elim 0 (·.2))), (16, u32 charged), (20, u32 released),
      (24, u32 (g.getD 0))]))

/-- LINE_DELIVERED: the first line of the run is drawn from the tile's output chain and sent as a LINE with the read's
tag; the run loses it and the read's delivered count rises. An emptied entry leaves the list while lines are still owed.
At the last owed line the read ends: the closing record takes the run's place, COMPLETE with the tile's statistics where
the read runs to the tile's last line and PARTIAL without statistics before it, and the port has no read. A read that
consumes, began at line 0 and ends COMPLETE frees the tile, COMPLETE by then, its output chain to the tail of the free list
and its entry gone, unless another port holds a WAITING or READY entry for it. Otherwise the reader is released, and a
WAITING entry of a COMPLETE tile turns READY as at an ENTRY_READY (log 10). The consume field without a reader is the
model's (log 27). -/
def Obligations.DeliveredLineLeavesRun : Prop :=
  ∀ (s : State) (p : Port) (e : StreamEntry) (rest : List OutEntry) (r : Read) (t : TileEntry),
    (s.port p).link = .up → (s.port p).sending = .entry → (s.port p).outbound = .stream e :: rest →
    e.reply = none → 0 < e.count → (s.port p).read = some r → s.tile? r.tile = some t →
    let line : Emission := .frame p (frameOf
      { kind := .line, code := .byte 0, tag := e.tag, status := none
        body := .line t.id e.first (Memory.readLine s.pages t.output t.width e.first) })
    let r' := { r with delivered := r.delivered + 1 }
    (1 < e.count → exec (.lineDelivered p) s = .next (s.fresh.serveFreed
      ((s.fresh.setPort p { s.port p with
          outbound := .stream { e with first := e.first + 1, count := e.count - 1 } :: rest, sending := .idle
          read := some r' }).emit line) p)) ∧
    (e.count = 1 → r.position < r.endLine → exec (.lineDelivered p) s = .next (s.fresh.serveFreed
      ((s.fresh.setPort p { s.port p with outbound := rest, sending := .idle, read := some r' }).emit line) p)) ∧
    (e.count = 1 → r.endLine ≤ r.position → e.isOpen = true → (∀ x ∈ rest, x.isOpenStream = false) →
      let closing : OutMessage :=
        { kind := .close, code := .byte 0, tag := r.tag, status := none
          body := .close
            { tile := r.tile, slot := t.slot, accession := t.accession
              outcome := if r.endLine = t.height then .complete else .part
              first := r.first, delivered := r.delivered + 1, stats := if r.endLine = t.height then t.stats else none } }
      let v := s.fresh.setPort p { s.port p with
        outbound := .stream { e with first := e.first + 1, count := 0, close := some closing, isOpen := false } :: rest
        sending := .idle, read := none }
      let freed := t.consume = true ∧ t.state = .complete ∧ r.endLine = t.height ∧ r.first = 0 ∧
        ∀ x ∈ s.entries, x.port ≠ p → x.tile = r.tile → x.state = .failed
      (freed → exec (.lineDelivered p) s = .next (s.fresh.serveFreed { v with
        sent := [line], freePages := s.freePages ++ t.output
        directory := s.directory.filter (fun x => decide (x.id ≠ r.tile)) } p)) ∧
      (¬ freed → exec (.lineDelivered p) s = .next (s.fresh.serveFreed
        (State.entryTurnsReady { v with
          sent := [line]
          directory := s.directory.map (fun x =>
            if x.id = r.tile then { x with reader := none, consume := false } else x) } r.tile) p)))

/-! ### The plate table -/

/-- PLATE_ENTER: the checks in the order of the table of R16, and the record of an accepted plate. -/
def Obligations.PlateEnterChecksAndCreates : Prop :=
  ∀ (s : State) (p : Port) (m : Message) (rest : List Message) (f : EnterFields),
    Asks s p m rest (.plateEnter f) →
    let u := s.taken p rest
    let duplicate := ∃ i pl, s.plate i = some pl ∧ pl.accession = f.accession
    let accessionOk := 1 ≤ f.accession.length ∧ f.accession.length ≤ 16 ∧
      ∀ b ∈ f.accession, 0x21 ≤ b.toNat ∧ b.toNat ≤ 0x7E
    ((∀ i, i < 32 → s.plate i ≠ none) → exec (.plateEnter p) s = .next (u.reply p m .tableFull .empty)) ∧
    (∀ slot, slot < 32 → s.plate slot = none → (∀ i, i < slot → s.plate i ≠ none) →
      (duplicate → exec (.plateEnter p) s = .next (u.reply p m .duplicate .empty)) ∧
      (¬ duplicate → ¬ accessionOk → exec (.plateEnter p) s = .next (u.reply p m .badField (.number 0))) ∧
      (¬ duplicate → accessionOk →
        (f.sizeClass = none ∨ f.condition = none ∨ f.carrier = none → ∃ offset,
          exec (.plateEnter p) s = .next (u.reply p m .badField (.number offset)) ∧
          (offset = 2 ∧ f.sizeClass = none ∨ offset = 3 ∧ f.condition = none ∨ offset = 4 ∧ f.carrier = none)) ∧
        (∀ size condition carrier, f.sizeClass = some size → f.condition = some condition → f.carrier = some carrier →
          (f.budget = 0 ∨ 4000000000 < f.budget →
            exec (.plateEnter p) s = .next (u.reply p m .badField (.number 6))) ∧
          (1 ≤ f.budget → f.budget ≤ 4000000000 → 64 < f.note.length →
            exec (.plateEnter p) s = .next (u.reply p m .badField (.number 1))) ∧
          (1 ≤ f.budget → f.budget ≤ 4000000000 → f.note.length ≤ 64 →
            exec (.plateEnter p) s = .next ((u.setPlate slot (some
              { state := .racked, accession := f.accession, sizeClass := size, condition := condition
                carrier := carrier, budget := f.budget, spent := 0, reservations := [], baseFog := none
                marginResult := .noResult, note := f.note, handlerPort := p
                keeps := { p0 := false, p1 := false, p2 := false }, programCount := 0
                noticePending := none })).reply p m .accepted (.slot slot))))))

/-- READ_PLATE: OK with the record, BUSY while REGISTERING, UNKNOWN_PLATE for a FREE slot; it changes nothing else. ANNOTATE:
the note of a plate that is not FREE is replaced and nothing is sent; for a FREE slot POST_ERROR UNKNOWN_PLATE. -/
def Obligations.ReadPlateAndAnnotate : Prop :=
  (∀ (s : State) (p : Port) (m : Message) (rest : List Message) (slot : Nat), Asks s p m rest (.readPlate slot) →
    (s.plate slot = none → exec (.readPlate p) s = .next ((s.taken p rest).reply p m .unknownPlate .empty)) ∧
    (∀ pl, s.plate slot = some pl → pl.state = .registering →
      exec (.readPlate p) s = .next ((s.taken p rest).reply p m .busy (.busy none none))) ∧
    (∀ pl, s.plate slot = some pl → pl.state ≠ .registering →
      exec (.readPlate p) s = .next ((s.taken p rest).reply p m .ok (.plate slot pl)))) ∧
  (∀ (s : State) (p : Port) (m : Message) (rest : List Message) (slot : Nat) (note : List Byte),
    Asks s p m rest (.annotate slot note) →
    (∀ pl, s.plate slot = some pl →
      exec (.annotate p) s = .next ((s.taken p rest).setPlate slot (some { pl with note := note }))) ∧
    (s.plate slot = none → exec (.annotate p) s = .next ((s.taken p rest).place p (.message
      { kind := .notice, code := .name (.code .postError), tag := m.tag, status := none
        body := .postError .unknownPlate m.code slot }))))

/-- RAISE_BUDGET by its checks, and RETIRE_PLATE by the checks of its table in order. -/
def Obligations.RaiseBudgetAndRetirePlate : Prop :=
  (∀ (s : State) (p : Port) (m : Message) (rest : List Message) (slot budget : Nat),
    Asks s p m rest (.raiseBudget slot budget) →
    (s.plate slot = none → exec (.raiseBudget p) s = .next ((s.taken p rest).reply p m .unknownPlate .empty)) ∧
    (∀ pl, s.plate slot = some pl → pl.budget < budget → budget ≤ 4000000000 →
      exec (.raiseBudget p) s = .next (((s.taken p rest).setPlate slot (some { pl with budget := budget })).reply p m .ok
        (.budget budget pl.spent pl.reserved (budget - pl.spent - pl.reserved)))) ∧
    (∀ pl, s.plate slot = some pl → budget ≤ pl.budget ∨ 4000000000 < budget →
      exec (.raiseBudget p) s = .next ((s.taken p rest).reply p m .badField (.number 2)))) ∧
  (∀ (s : State) (p : Port) (m : Message) (rest : List Message) (slot : Nat), Asks s p m rest (.retirePlate slot) →
    (s.plate slot = none → exec (.retirePlate p) s = .next ((s.taken p rest).reply p m .unknownPlate .empty)) ∧
    (∀ pl, s.plate slot = some pl →
      (pl.state = .placed ∨ pl.state = .registering ∨ pl.state = .staged ∨ pl.state = .releasing →
        exec (.retirePlate p) s = .next ((s.taken p rest).reply p m .onStage .empty)) ∧
      (pl.state = .called → exec (.retirePlate p) s = .next ((s.taken p rest).reply p m .called .empty)) ∧
      (pl.state = .racked → pl.programCount ≠ 0 →
        exec (.retirePlate p) s = .next ((s.taken p rest).reply p m .programsPending .empty)) ∧
      (pl.state = .racked → pl.programCount = 0 →
        exec (.retirePlate p) s = .next (((s.taken p rest).setPlate slot none).reply p m .ok .empty))))

/-- PLATE_PLACED by the rows of R21, with the effects of an accepted placement: the pending CALL is cleared, a
calibration in flight is interrupted, the registration starts under auto-registration, and what follows is settled. The
interruption stands before the registration's start by the model's choice (log 20). -/
def Obligations.PlacementIsAcceptedOrAnswered : Prop :=
  ∀ (s : State) (p : Port) (m : Message) (rest : List Message) (slot : Nat), Asks s p m rest (.platePlaced slot) →
    let u := s.taken p rest
    (s.plate slot = none → exec (.platePlaced p) s = .next (u.place p (.message
      { kind := .notice, code := .name (.code .postError), tag := m.tag, status := none
        body := .postError .unknownPlate m.code slot }))) ∧
    (∀ pl, s.plate slot = some pl →
      (pl.state = .placed ∨ pl.state = .registering ∨ pl.state = .staged ∨ pl.state = .releasing →
        exec (.platePlaced p) s = .next u) ∧
      (pl.state = .racked ∨ pl.state = .called →
        (s.occupant ≠ none → exec (.platePlaced p) s = .next (u.place p (.message
          { kind := .notice, code := .name (.code .postError), tag := m.tag, status := none
            body := .postError .stageConflict m.code slot }))) ∧
        (s.occupant = none → s.settings.autoRegistration = true →
          exec (.platePlaced p) s = .next (u.settle (((u.setPlate slot (some
            { pl with state := .registering, noticePending := none })).interruptCalibration).startRegistration slot
            none))) ∧
        (s.occupant = none → s.settings.autoRegistration = false →
          exec (.platePlaced p) s = .next (u.settle ((u.setPlate slot (some
            { pl with state := .placed, noticePending := none })).interruptCalibration)))))

/-- PLATE_REMOVED: ordinary and forced removals, and POST_ERROR NOT_ON_STAGE for a plate that is not on the stage. A forced
removal aborts the registration of its slot: the margin work is abandoned by the exposure unit's state, the context is
empty and REG_DONE says ABORTED. It fixes PLATE_LOST, unless an outcome is fixed, for the RUNNING program of its slot and
gives up that program's tile. -/
def Obligations.RemovalIsOrdinaryOrForced : Prop :=
  (∀ (s : State) (p : Port) (m : Message) (rest : List Message) (slot : Nat), Asks s p m rest (.plateRemoved slot) →
    let u := s.taken p rest
    let notOnStage : OutEntry := .message
      { kind := .notice, code := .name (.code .postError), tag := m.tag, status := none
        body := .postError .notOnStage m.code slot }
    (s.plate slot = none → exec (.plateRemoved p) s = .next (u.place p notOnStage)) ∧
    (∀ pl, s.plate slot = some pl →
      let v := u.setPlate slot (some { pl with
        state := .racked, keeps := { p0 := false, p1 := false, p2 := false }, noticePending := none })
      (pl.state = .racked ∨ pl.state = .called → exec (.plateRemoved p) s = .next (u.place p notOnStage)) ∧
      (pl.state = .releasing ∨ ((pl.state = .placed ∨ pl.state = .staged) ∧ pl.hasHold = false) →
        exec (.plateRemoved p) s = .next (u.settle v)) ∧
      (pl.state = .placed ∨ pl.state = .registering ∨ pl.state = .staged → pl.hasHold = true →
        exec (.plateRemoved p) s = .next (u.settle ((v.abortFor slot
          { pl with state := .racked, keeps := { p0 := false, p1 := false, p2 := false }
                    noticePending := none }).losePlate slot))))) ∧
  (∀ (s : State) (slot : Nat) (pl : Plate) (r : Registration),
    (s.registration = none → s.abortFor slot pl = s) ∧
    (s.registration = some r → r.slot ≠ slot → s.abortFor slot pl = s) ∧
    (s.registration = some r → r.slot = slot → ∃ v : State, s.abortFor slot pl = v.sendRegDone r pl .aborted none 0 ∧
      v = { s with registration := none, unit := v.unit, lamp := v.lamp, sent := v.sent } ∧
      (r.phase = .waitUnit ∨ r.phase = .measuring → v.unit = s.unit ∧ v.lamp = s.lamp ∧ v.sent = s.sent) ∧
      (∀ c, r.phase = .moving ∨ r.phase = .exposing ∨ r.phase = .readout → s.unit.context = some c → c.kind = .margin →
        c.disposal = false →
        (s.unit.state = .moving ∨ s.unit.state = .exposing →
          v.unit = { s.unit with state := .idle, context := none, timer := .stopped } ∧
          v.lamp = { s.lamp with gateOpen := false }) ∧
        (s.unit.state = .moving → v.sent = s.sent) ∧
        (s.unit.state = .exposing → v.sent = s.sent ++ [.stop s.unit.takeNumber]) ∧
        (s.unit.state = .readout → v.unit = { s.unit with context := some { c with disposal := true } } ∧
          v.lamp = s.lamp ∧ v.sent = s.sent)))) ∧
  (∀ (s : State) (slot : Nat),
    ((∀ g, s.running = some g → g.content.slot ≠ slot) → s.losePlate slot = s) ∧
    (∀ g, s.running = some g → g.content.slot = slot → s.losePlate slot =
      State.giveUpTile { s with programs := s.programs.map (fun x =>
        if x.tag = g.tag then { x with outcome := some (x.outcome.getD .plateLost) } else x) } g true))

/-- A plate in a stage state has a hold when its keep set is not empty, its program count is above 0 or it is
REGISTERING; a plate not in a stage state has none. -/
def Obligations.HoldIsKeepProgramOrRegistration : Prop :=
  ∀ pl : Plate,
    (pl.state = .placed ∨ pl.state = .registering ∨ pl.state = .staged ∨ pl.state = .releasing →
      (pl.hasHold = true ↔
        (∃ p, pl.keeps.has p = true) ∨ 0 < pl.programCount ∨ pl.state = .registering)) ∧
    (pl.state = .racked ∨ pl.state = .called → pl.hasHold = false)

/-- KEEP and UNKEEP: the requesting port joins or leaves the keep set; the reply OK carries the set after the change; the
staging unit then judges the stage. The reply stands before a notice that this examination places on the same list, which
is the model's choice (log 11). -/
def Obligations.KeepAndUnkeepChangeKeepSet : Prop :=
  ∀ (s : State) (p : Port) (m : Message) (rest : List Message) (slot : Nat),
    let u := s.taken p rest
    (Asks s p m rest (.keep slot) →
      (s.plate slot = none → exec (.keep p) s = .next (u.reply p m .notOnStage .empty)) ∧
      (∀ pl, s.plate slot = some pl →
        (pl.state = .racked ∨ pl.state = .called → exec (.keep p) s = .next (u.reply p m .notOnStage .empty)) ∧
        (pl.state = .releasing → exec (.keep p) s = .next (u.reply p m .releasing .empty)) ∧
        (pl.state = .placed ∨ pl.state = .registering ∨ pl.state = .staged →
          ∃ k : PortSet, k.has p = true ∧ (∀ q, q ≠ p → k.has q = pl.keeps.has q) ∧
            exec (.keep p) s = .next (u.examineOnChange
              ((u.setPlate slot (some { pl with keeps := k })).reply p m .ok (.keeps k)))))) ∧
    (Asks s p m rest (.unkeep slot) →
      (s.plate slot = none → exec (.unkeep p) s = .next (u.reply p m .notOnStage .empty)) ∧
      (∀ pl, s.plate slot = some pl →
        (pl.state = .racked ∨ pl.state = .called → exec (.unkeep p) s = .next (u.reply p m .notOnStage .empty)) ∧
        (pl.state = .placed ∨ pl.state = .registering ∨ pl.state = .staged ∨ pl.state = .releasing →
          ∃ k : PortSet, k.has p = false ∧ (∀ q, q ≠ p → k.has q = pl.keeps.has q) ∧
            exec (.unkeep p) s = .next (u.examineOnChange
              ((u.setPlate slot (some { pl with keeps := k })).reply p m .ok (.keeps k))))))

/-- RELEASE_PLATE by the rows of R28. -/
def Obligations.ReleaseIsGrantedOrHeld : Prop :=
  ∀ (s : State) (p : Port) (m : Message) (rest : List Message) (slot : Nat), Asks s p m rest (.releasePlate slot) →
    let u := s.taken p rest
    (s.plate slot = none → exec (.releasePlate p) s = .next (u.reply p m .notOnStage .empty)) ∧
    (∀ pl, s.plate slot = some pl →
      (pl.state = .racked ∨ pl.state = .called → exec (.releasePlate p) s = .next (u.reply p m .notOnStage .empty)) ∧
      (pl.state = .releasing → exec (.releasePlate p) s = .next (u.reply p m .granted .empty)) ∧
      (pl.state = .placed ∨ pl.state = .staged → pl.hasHold = false →
        exec (.releasePlate p) s = .next (u.examineOnChange
          ((u.setPlate slot (some { pl with state := .releasing })).reply p m .granted .empty))) ∧
      (pl.state = .placed ∨ pl.state = .registering ∨ pl.state = .staged → pl.hasHold = true →
        exec (.releasePlate p) s = .next (u.reply p m .held
          (.held pl.keeps pl.programCount (decide (pl.state = .registering))))))

/-- The operations on a plate's accounts: reserve, re-estimate and release, the rows of the table of a program charge, and
the unreserved charge. -/
def Obligations.AccountsFollowTheTable : Prop :=
  (∀ (pl : Plate) (tag estimate : Nat), pl.withinBudget →
    (estimate ≤ pl.budget - pl.spent - pl.reserved → ∃ pl', pl.reserve tag estimate = some pl' ∧
      pl' = { pl with reservations := pl.reservations ++ [{ tag := tag, remaining := estimate }]
                      programCount := pl.programCount + 1 } ∧
      pl'.reserved = pl.reserved + estimate ∧ pl'.withinBudget) ∧
    (pl.budget - pl.spent - pl.reserved < estimate → pl.reserve tag estimate = none) ∧
    (∀ before r after, pl.reservations = before ++ r :: after → r.tag = tag → (∀ x ∈ before ++ after, x.tag ≠ tag) →
      (estimate ≤ r.remaining + (pl.budget - pl.spent - pl.reserved) → ∃ pl', pl.reestimate tag estimate = some pl' ∧
        pl' = { pl with reservations := before ++ { r with remaining := estimate } :: after } ∧ pl'.withinBudget) ∧
      (r.remaining + (pl.budget - pl.spent - pl.reserved) < estimate → pl.reestimate tag estimate = none) ∧
      pl.release tag =
        (r.remaining, { pl with reservations := before ++ after, programCount := pl.programCount - 1 }))) ∧
  (∀ (pl : Plate) (tag cost : Nat), pl.withinBudget →
    (∀ before r after, pl.reservations = before ++ r :: after → r.tag = tag → (∀ x ∈ before ++ after, x.tag ≠ tag) →
      (pl.state = .staged →
        (cost ≤ r.remaining → pl.programCharge tag cost = (.granted, { pl with
          spent := pl.spent + cost
          reservations := before ++ { r with remaining := r.remaining - cost } :: after })) ∧
        (r.remaining < cost → cost - r.remaining ≤ pl.budget - pl.spent - pl.reserved →
          pl.programCharge tag cost = (.granted, { pl with
            spent := pl.spent + cost, reservations := before ++ { r with remaining := 0 } :: after })) ∧
        (r.remaining < cost → pl.budget - pl.spent - pl.reserved < cost - r.remaining →
          pl.programCharge tag cost = (.doseLimit, pl))) ∧
      (pl.state ≠ .staged → pl.programCharge tag cost = (.notOnStage, pl))) ∧
    (∀ required,
      (pl.state = required → cost ≤ pl.budget - pl.spent - pl.reserved →
        pl.unreservedCharge required cost = (.granted, { pl with spent := pl.spent + cost })) ∧
      (pl.state = required → pl.budget - pl.spent - pl.reserved < cost →
        pl.unreservedCharge required cost = (.doseLimit, pl)) ∧
      (pl.state ≠ required → pl.unreservedCharge required cost = (.notOnStage, pl))))

/-! ### Staging and registration -/

/-- REGISTER: the refusals of R44 in their order, and the accepted request. That a PLACED plate with a RUNNING program is
refused with BUSY is the model's choice (log 30). -/
def Obligations.RegisterStartsOrRefuses : Prop :=
  ∀ (s : State) (p : Port) (m : Message) (rest : List Message) (slot : Nat), Asks s p m rest (.register slot) →
    let u := s.taken p rest
    (s.plate slot = none → exec (.register p) s = .next (u.reply p m .unknownPlate .empty)) ∧
    (∀ pl, s.plate slot = some pl →
      (pl.state = .racked ∨ pl.state = .called → exec (.register p) s = .next (u.reply p m .notOnStage .empty)) ∧
      (pl.state = .releasing → exec (.register p) s = .next (u.reply p m .releasing .empty)) ∧
      (pl.state = .registering → exec (.register p) s = .next (u.reply p m .busy (.busy none none))) ∧
      (pl.state = .placed ∨ pl.state = .staged →
        (∀ g, s.running = some g → g.content.slot = slot →
          exec (.register p) s = .next (u.reply p m .busy (.busy none none))) ∧
        ((∀ g ∈ s.programs, g.state = .running → g.content.slot ≠ slot) →
          exec (.register p) s = .next ((((((u.setPlate slot (some { pl with state := .registering })).reply p m
            .accepted .empty).startRegistration slot (some p)).examine).tryAllocation).offerUnit))))

/-- The start of a registration: a failed start check of R40 ends it at once with margin result UNREADABLE, without a
move; otherwise it takes an IDLE exposure unit, which is MOVING with the MARGIN context and the MOVE to (150, 150), or it
waits for it; nothing else changes. The context's next line, 0 before a lamp phase has ended, is the model's choice
(log 28). -/
def Obligations.RegistrationStartChecks : Prop :=
  ∀ (s : State) (slot : Nat) (q : Option Port) (pl : Plate), s.plate slot = some pl →
    ((s.cal.params = none ∨ ∃ c, s.cal.params = some c ∧ (c.width < s.settings.marginOffset + 64 ∨
        exposureTime c.tRef s.settings.marginStep < 20 ∨ 30000000 < exposureTime c.tRef s.settings.marginStep)) →
      (s.startRegistration slot q).registration = none ∧ (s.startRegistration slot q).unit = s.unit ∧
      (s.startRegistration slot q).plate slot =
        some { pl with state := .staged, marginResult := .unreadable, baseFog := none } ∧
      ∃ r : Registration, r.slot = slot ∧ r.requester = q ∧ r.doseCharged = 0 ∧
        s.startRegistration slot q = s.endRegistration r .unreadable none 0) ∧
    (∀ c, s.cal.params = some c → s.settings.marginOffset + 64 ≤ c.width →
      20 ≤ exposureTime c.tRef s.settings.marginStep → exposureTime c.tRef s.settings.marginStep ≤ 30000000 →
      (s.startRegistration slot q).registration = some
        { slot := slot, requester := q, phase := if s.unit.state = .idle then .moving else .waitUnit
          step := s.settings.marginStep, saturation := s.settings.marginSaturation, floor := s.settings.marginFloor
          offset := s.settings.marginOffset, time := exposureTime c.tRef s.settings.marginStep
          cost := exposureCost c.level (exposureTime c.tRef s.settings.marginStep), doseCharged := 0, retakes := 0
          buffer := [] } ∧
      (s.unit.state = .idle → s.startRegistration slot q = { s with
        registration := (s.startRegistration slot q).registration
        unit := { s.unit with
          state := .moving, moveSeq := s.unit.moveSeq + 1, timer := .answer 50
          context := some
            { kind := .margin, x := 150, y := 150, gentle := decide (pl.condition = .flaking)
              c0 := s.settings.marginOffset, width := 64, height := 64
              exposures := [
                { step := some s.settings.marginStep, time := exposureTime c.tRef s.settings.marginStep
                  cost := exposureCost c.level (exposureTime c.tRef s.settings.marginStep) }]
              current := 1, retakes := 0, level := c.level, attempt := 1, nextLine := 0, disposal := false
              doseCharged := 0 } }
        sent := s.sent ++ [.move (s.unit.moveSeq + 1) 150 150 (decide (pl.condition = .flaking))] }) ∧
      (s.unit.state ≠ .idle → s.startRegistration slot q =
        { s with registration := (s.startRegistration slot q).registration }))

/-- MEASUREMENT_END: with at least 2048 NORMAL samples the registration ends READ with base_fog the floor of their mean
code, and otherwise UNREADABLE; then what follows is settled. Outside MEASURING nothing comes about (log 3). The NORMAL
samples are those of the margin buffer under the registration's step, saturation, floor and offset, rounded
NEAREST_EVEN, without marking or base subtraction. The end of a registration: the plate STAGED with its margin result and
base_fog, no context, and REG_DONE for the handler port and for a requester that differs from it. -/
def Obligations.MeasurementEndsRegistration : Prop :=
  (∀ (s : State) (r : Registration) (c : CalParams), s.registration = some r → s.cal.params = some c →
    (r.phase = .measuring → 2048 ≤ (normalCodes r c).length → exec .measurementEnd s = .next (s.fresh.settle
      (s.fresh.endRegistration r .read (some ((normalCodes r c).sum / (normalCodes r c).length))
        (normalCodes r c).length))) ∧
    (r.phase = .measuring → (normalCodes r c).length < 2048 → exec .measurementEnd s = .next (s.fresh.settle
      (s.fresh.endRegistration r .unreadable none (normalCodes r c).length))) ∧
    (r.phase ≠ .measuring → exec .measurementEnd s = .next s.fresh)) ∧
  (∀ (r : Registration) (c : CalParams), normalCodes r c =
    ((r.buffer.flatMap (fun l => l.zipIdx.map (fun (v, x) =>
      density { steps := [r.step], dark := c.dark, sat := r.saturation, floor := r.floor, rounding := .nearestEven
                mergeMode := .select, marking := false, fog := none }
        (c.table.getD (r.offset + x) 0) [v.toNat]))).filter (fun x => decide (x.1 = .normal))).map (fun x => x.2)) ∧
  (∀ (s : State) (r : Registration) (pl : Plate) (o : RegOutcome) (fog : Option Nat) (normal : Nat),
    (s.plate r.slot = some pl → ∀ result, (o, result) ∈
        [(RegOutcome.read, MarginResult.read), (.unreadable, .unreadable), (.dose, .dose)] →
      s.endRegistration r o fog normal = State.sendRegDone
        { s.setPlate r.slot (some { pl with state := .staged, marginResult := result, baseFog := fog }) with
          registration := none } r pl o fog normal) ∧
    (∀ done, done = OutEntry.message
        { kind := .notice, code := .name (.code .regDone), tag := 0, status := none
          body := .regDone r.slot pl.accession o fog normal r.doseCharged } →
      (r.requester = none ∨ r.requester = some pl.handlerPort →
        s.sendRegDone r pl o fog normal = s.place pl.handlerPort done) ∧
      (∀ q, r.requester = some q → q ≠ pl.handlerPort →
        s.sendRegDone r pl o fog normal = (s.place pl.handlerPort done).place q done)))

/-- The examination of the stage, row by row of the table of R33: calls, returns, the head's waiting state, and the start
of a head program whose plate is STAGED; where that program ends at its start checks, the stage is examined again for the
next head. The head is the oldest program of the queue in a counted state. Without a head, and with a RUNNING one, nothing
changes. A call or return notice goes to the handler port's list with what the plate record says, or is kept pending where
the port cannot take it. -/
def Obligations.ExaminationActsByTable : Prop :=
  (∀ (s : State) (g : Program) (pl : Plate), s.headProgram = some g → g.state ≠ .running →
    s.plate g.content.slot = some pl →
    (pl.state = .placed ∨ pl.state = .registering → s.examine = s.headWaits g.tag .waitRegister) ∧
    (pl.state = .releasing → s.examine = s.headWaits g.tag .waitStage) ∧
    (pl.state = .racked → s.stagePlate = none → s.examine =
      (((s.setPlate g.content.slot (some { pl with state := .called })).issueNotice g.content.slot
        (.call g.tag)).headWaits g.tag .waitPlate)) ∧
    (pl.state = .called → s.stagePlate = none → s.examine = s.headWaits g.tag .waitPlate) ∧
    (∀ i o, pl.state = .racked ∨ pl.state = .called → s.stagePlate = some (i, o) →
      (o.state ≠ .releasing → o.hasHold = false → s.examine =
        (((s.setPlate i (some { o with state := .releasing })).issueNotice i (.ret g.content.slot)).headWaits g.tag
          .waitStage)) ∧
      (o.state = .releasing ∨ o.hasHold = true → s.examine = s.headWaits g.tag .waitStage))) ∧
  (∀ s : State, (s.headProgram = none → s.examine = s) ∧
    (∀ g, s.headProgram = some g → g.state = .running → s.examine = s) ∧
    (∀ g pl, s.headProgram = some g → g.state ≠ .running → s.plate g.content.slot = some pl → pl.state = .staged →
      ((s.startHead g pl).1 = false → s.examine = (s.startHead g pl).2) ∧
      ((s.startHead g pl).1 = true → s.examine = (s.startHead g pl).2.examine))) ∧
  (∀ s : State,
    let counted := fun (g : Program) => g.state = .queued ∨ g.state = .waitStage ∨ g.state = .waitPlate ∨
      g.state = .waitRegister ∨ g.state = .running
    (∀ g, s.headProgram = some g ↔
      ∃ older younger, s.programs = older ++ g :: younger ∧ counted g ∧ ∀ x ∈ older, ¬ counted x) ∧
    (s.headProgram = none ↔ ∀ x ∈ s.programs, ¬ counted x)) ∧
  (∀ (s : State) (slot tag : Nat) (pl : Plate) (n : PendingNotice) (st : ProgramState), s.plate slot = some pl →
    s.headWaits tag st = { s with programs := s.programs.map (fun x =>
      if x.tag = tag then { x with state := st } else x) } ∧
    (∀ e, e = (match n with
        | .call tag => OutEntry.message
          { kind := .notice, code := .name (.code .callPlate), tag := 0, status := none
            body := .callPlate slot pl.sizeClass pl.condition pl.carrier pl.accession tag }
        | .ret wanted => OutEntry.message
          { kind := .notice, code := .name (.code .returnPlate), tag := 0, status := none
            body := .returnPlate slot pl.accession wanted }) →
      ((s.port pl.handlerPort).link = .up → (s.port pl.handlerPort).outbound.length < 64 →
        s.issueNotice slot n = s.place pl.handlerPort e) ∧
      ((s.port pl.handlerPort).link = .down ∨ 64 ≤ (s.port pl.handlerPort).outbound.length →
        s.issueNotice slot n = s.setPlate slot (some { pl with noticePending := some n }))))

/-! ### Programs -/

/-- The checks of a header, a bracket set and a tile descriptor: each header field in the order of R50 by its offset, and
the ranges of R51 and R52. The exposure times of a bracket set are legal from 20 to 30,000,000 µs (R53), and the estimate
is the sum of the costs of every exposure of every tile (R54). -/
def Obligations.SubmissionFieldChecks : Prop :=
  (∀ f : SubmitFields,
    (f.rounding = none → f.header = .inl 1) ∧
    (∀ a, f.rounding = some a → f.mergeMode = none → f.header = .inl 2) ∧
    (∀ a b, f.rounding = some a → f.mergeMode = some b → f.marking = none → f.header = .inl 3) ∧
    (∀ a b c, f.rounding = some a → f.mergeMode = some b → f.marking = some c → f.baseSubtraction = none →
      f.header = .inl 4) ∧
    (∀ a b c d, f.rounding = some a → f.mergeMode = some b → f.marking = some c → f.baseSubtraction = some d →
      (f.sat < 1024 ∨ 16383 < f.sat → f.header = .inl 8) ∧
      (1024 ≤ f.sat → f.sat ≤ 16383 →
        (f.floor = 0 ∨ 4095 < f.floor → f.header = .inl 10) ∧
        (1 ≤ f.floor → f.floor ≤ 4095 →
          (f.bracketCount = 0 ∨ 4 < f.bracketCount → f.header = .inl 5) ∧
          (1 ≤ f.bracketCount → f.bracketCount ≤ 4 →
            (f.tileCount = 0 ∨ 64 < f.tileCount → f.header = .inl 6) ∧
            (1 ≤ f.tileCount → f.tileCount ≤ 64 →
              f.header = .inr { rounding := a, mergeMode := b, marking := c, baseSubtraction := d })))))) ∧
  (∀ b : BracketField, b.good = true ↔
    1 ≤ b.count ∧ b.count ≤ 4 ∧ (∀ e ∈ b.steps, -24 ≤ e ∧ e ≤ 96) ∧ b.steps.Pairwise (· < ·)) ∧
  (∀ (d : TileDesc) (size : SizeClass) (brackets calWidth : Nat), d.good size brackets calWidth = true ↔
    d.x ≤ (match size with | .q => 10800 | .h => 16500 | .w => 21600 | .l => 40000) ∧
    d.y ≤ (match size with | .q => 8300 | .h => 12000 | .w => 16500 | .l => 30000) ∧
    d.c0 ≤ 4032 ∧ 64 ≤ d.width ∧ d.width ≤ 4096 ∧ 64 ∣ d.width ∧ 16 ≤ d.height ∧ d.height ≤ 4096 ∧ 16 ∣ d.height ∧
    d.bracket < brackets ∧ d.c0 + d.width ≤ calWidth) ∧
  (∀ (c : CalParams) (steps : List Int), stepsLegal c steps = true ↔
    ∀ e ∈ steps, 20 ≤ exposureTime c.tRef e ∧ exposureTime c.tRef e ≤ 30000000) ∧
  (∀ (c : CalParams) (b : Submission), estimateOf c b =
    (b.tiles.map (fun d => ((b.brackets.getD d.bracket []).map (fun e =>
      exposureCost c.level (exposureTime c.tRef e))).sum)).sum)

/-- SUBMIT_PROGRAM refuses by the first failing check of R49. -/
def Obligations.SubmitRefusesByFirstFailingCheck : Prop :=
  ∀ (s : State) (p : Port) (m : Message) (rest : List Message) (f : SubmitFields),
    Asks s p m rest (.submitProgram f) →
    let u := s.taken p rest
    (s.plate f.slot = none → exec (.submitProgram p) s = .next (u.reply p m .noPlate .empty)) ∧
    (∀ pl, s.plate f.slot = some pl →
      (8 ≤ s.programs.length → exec (.submitProgram p) s = .next (u.reply p m .queueFull .empty)) ∧
      (s.programs.length < 8 →
        (s.cal.params = none → exec (.submitProgram p) s = .next (u.reply p m .noCal .empty)) ∧
        (∀ c, s.cal.params = some c →
          (∀ offset, f.header = .inl offset →
            exec (.submitProgram p) s = .next (u.reply p m .badField (.number offset))) ∧
          (∀ h, f.header = .inr h →
            (∀ k b, f.brackets[k]? = some b → b.good = false →
              (∀ j x, j < k → f.brackets[j]? = some x → x.good = true) →
              exec (.submitProgram p) s = .next (u.reply p m .badBracket (.number k))) ∧
            ((∀ b ∈ f.brackets, b.good = true) →
              (∀ k d, f.tiles[k]? = some d → d.good pl.sizeClass f.bracketCount c.width = false →
                (∀ j x, j < k → f.tiles[j]? = some x → x.good pl.sizeClass f.bracketCount c.width = true) →
                exec (.submitProgram p) s = .next (u.reply p m .badTile (.number k))) ∧
              ((∀ d ∈ f.tiles, d.good pl.sizeClass f.bracketCount c.width = true) →
                (∀ k b, f.brackets[k]? = some b → stepsLegal c b.steps = false →
                  (∀ j x, j < k → f.brackets[j]? = some x → stepsLegal c x.steps = true) →
                  exec (.submitProgram p) s = .next (u.reply p m .badExposure (.number k))) ∧
                ((∀ b ∈ f.brackets, stepsLegal c b.steps = true) →
                  (pl.condition = .cracked → pl.carrier = false →
                    exec (.submitProgram p) s = .next (u.reply p m .needsCarrier .empty)) ∧
                  (pl.condition ≠ .cracked ∨ pl.carrier = true →
                    pl.budget - pl.spent - pl.reserved < estimateOf c (f.content h) →
                    exec (.submitProgram p) s = .next (u.reply p m .doseLimit
                      (.dose (estimateOf c (f.content h)) (pl.budget - pl.spent - pl.reserved)))))))))))

/-- SUBMIT_PROGRAM that passes every check: the reservation and the program count, the record at the tail in QUEUED, the
reply ACCEPTED with tag and estimate, then the examination if the head or the hold changed. -/
def Obligations.SubmitAcceptsAndReserves : Prop :=
  ∀ (s : State) (p : Port) (m : Message) (rest : List Message) (f : SubmitFields) (pl : Plate) (c : CalParams)
    (h : HeaderNames), Asks s p m rest (.submitProgram f) →
    s.plate f.slot = some pl → s.programs.length < 8 → s.cal.params = some c → f.header = .inr h →
    (∀ b ∈ f.brackets, b.good = true) → (∀ d ∈ f.tiles, d.good pl.sizeClass f.bracketCount c.width = true) →
    (∀ b ∈ f.brackets, stepsLegal c b.steps = true) → (pl.condition ≠ .cracked ∨ pl.carrier = true) →
    estimateOf c (f.content h) ≤ pl.budget - pl.spent - pl.reserved →
    let u := s.taken p rest
    let tag := s.chooseTag
    let estimate := estimateOf c (f.content h)
    exec (.submitProgram p) s = .next (u.examineOnChange
      (State.reply { u.setPlate f.slot (some { pl with
            reservations := pl.reservations ++ [{ tag := tag, remaining := estimate }]
            programCount := pl.programCount + 1 }) with
          programs := s.programs ++ [
            { tag := tag, port := p, state := .queued, content := f.content h, estimate := estimate, captureStep := none
              nextTile := 0, tilesInMerge := 0, tilesCompleted := 0, outcome := none, failingTile := none
              refusedTile := none, doseCharged := 0, doseReleased := none, generation := none, baseFogUsed := none }]
          tagCounter := if tag < 65535 then tag + 1 else 1 } p m .accepted (.programAccepted tag estimate)))

/-- The tag chosen at an acceptance is not held by a program, a tile entry or a pending entry, it lies in 1..65535, and
every candidate passed over from the counter on was held. -/
def Obligations.ChosenTagIsFree : Prop :=
  ∀ s : State, 1 ≤ s.tagCounter → s.tagCounter ≤ 65535 →
    s.programs.length ≤ 8 → s.directory.length ≤ 128 → s.entries.length ≤ 8 →
    (∀ g ∈ s.programs, g.tag ≠ s.chooseTag) ∧ (∀ t ∈ s.directory, t.id.tag ≠ s.chooseTag) ∧
    (∀ e ∈ s.entries, e.tile.tag ≠ s.chooseTag) ∧ 1 ≤ s.chooseTag ∧ s.chooseTag ≤ 65535 ∧
    ∃ k, s.chooseTag = (s.tagCounter - 1 + k) % 65535 + 1 ∧
      ∀ j, j < k → ((s.tagCounter - 1 + j) % 65535 + 1) ∈ s.heldTags

/-- The start checks of a head program whose plate is STAGED, in the order of R60, and what a program that fails one
leaves: its outcome and refused tile, the generation, the release of its reservation, and its PROGRAM_DONE, placed or held
as it is FINISHED. The first check asks of every tile that it lies within the calibrated columns and that its exposure
times are legal. A program that passes is RUNNING, and its tile 0 asks for its pages (R61, R62). -/
def Obligations.StartChecksInOrder : Prop :=
  (∀ (s : State) (g : Program) (pl : Plate) (c : CalParams), s.cal.params = some c →
    (∀ k d, g.content.tiles[k]? = some d → tileStarts c g.content d = false →
      (∀ j x, j < k → g.content.tiles[j]? = some x → tileStarts c g.content x = true) →
      s.startHead g pl = (true, s.endAtStart g.tag .startRefused (some k))) ∧
    ((∀ d ∈ g.content.tiles, tileStarts c g.content d = true) →
      (g.content.baseSubtraction = true → pl.baseFog = none →
        s.startHead g pl = (true, s.endAtStart g.tag .noBase none)) ∧
      (g.content.baseSubtraction = false ∨ pl.baseFog ≠ none →
        (pl.reestimate g.tag (estimateOf c g.content) = none →
          s.startHead g pl = (true, s.endAtStart g.tag .doseLimit none)) ∧
        (∀ pl', pl.reestimate g.tag (estimateOf c g.content) = some pl' → s.startHead g pl = (false,
          ((s.setPlate g.content.slot (some pl')).modProgram g.tag (fun g => { g with
            state := .running, estimate := estimateOf c g.content, generation := some s.cal.generation, nextTile := 0
            captureStep := some .storeWait
            baseFogUsed := if g.content.baseSubtraction then pl.baseFog else none })).tryAllocation))))) ∧
  (∀ (s : State) (g : Program) (pl : Plate) (o : ProgramOutcome) (k : Option Nat), s.program? g.tag = some g →
    s.plate g.content.slot = some pl → s.endAtStart g.tag o k = State.deliverDone
      { s.setPlate g.content.slot (some (pl.release g.tag).2) with
        programs := s.programs.map (fun x => if x.tag = g.tag then { x with
          outcome := some o, refusedTile := k, generation := some s.cal.generation
          doseReleased := some (pl.release g.tag).1, state := .finished, captureStep := none } else x) } g.tag) ∧
  (∀ (c : CalParams) (b : Submission) (d : TileDesc), tileStarts c b d = true ↔ d.c0 + d.width ≤ c.width ∧
    ∀ e ∈ b.brackets.getD d.bracket [], 20 ≤ exposureTime c.tRef e ∧ exposureTime c.tRef e ≤ 30000000)

/-- CANCEL_PROGRAM: a tag no program holds, an outcome already fixed, a waiting program and a RUNNING program. The place
of the reply before the other effects is the model's choice where no rule gives it (log 11). Then what becomes of the
exposure unit, of a waiting allocation and of the tile when a tile is given up, by capture step and unit state: for a cancel
(`b = false`) and for a forced removal (`b = true`). The end of a capture releases the reservation, records the failing
tile, and leaves the program MERGING while it has tiles in merge and FINISHED otherwise; a FINISHED program's PROGRAM_DONE
is placed, and its record and FAILED tiles go, or it is held. The call of a plate that no program wants any more is
withdrawn. -/
def Obligations.CancelAndGivenUpTile : Prop :=
  (∀ (s : State) (p : Port) (m : Message) (rest : List Message) (tag : Nat), Asks s p m rest (.cancelProgram tag) →
    let u := s.taken p rest
    ((∀ g ∈ s.programs, g.tag ≠ tag) → exec (.cancelProgram p) s = .next (u.reply p m .unknownProgram .empty)) ∧
    (∀ g, s.program? tag = some g →
      (∀ o, g.outcome = some o → exec (.cancelProgram p) s = .next (u.reply p m .ok (.programOutcome tag o))) ∧
      (g.outcome = none →
        (g.state = .queued ∨ g.state = .waitStage ∨ g.state = .waitPlate ∨ g.state = .waitRegister →
          exec (.cancelProgram p) s = .next (u.settle
            (((((u.fixOutcome tag .cancelled).releaseProgram tag).reply p m .ok
              (.programOutcome tag .cancelled)).withdrawCall g.content.slot).finishProgram tag))) ∧
        (g.state = .running → exec (.cancelProgram p) s = .next (u.settle
          (((u.fixOutcome tag .cancelled).reply p m .ok (.programOutcome tag .cancelled)).giveUpTile g false)))))) ∧
  (∀ (s : State) (g : Program) (b : Bool),
    (g.captureStep = some .storeWait → (s.giveUpTile g b).allocWaiting = none ∧ (s.giveUpTile g b).unit = s.unit) ∧
    (g.captureStep = some .unitWait → (s.giveUpTile g b).unit = s.unit ∧ (s.giveUpTile g b).sent = s.sent) ∧
    (g.captureStep = some .inUnit → s.holdsTile { tag := g.tag, index := g.nextTile } = true →
      (s.unit.state = .moving → (s.giveUpTile g b).unit.state = .idle ∧ (s.giveUpTile g b).unit.context = none ∧
        (s.giveUpTile g b).sent = s.sent) ∧
      (s.unit.state = .exposing → (s.giveUpTile g b).unit.state = .idle ∧ (s.giveUpTile g b).unit.context = none ∧
        (s.giveUpTile g b).lamp.gateOpen = false ∧
        (s.giveUpTile g b).sent = s.sent ++ [.stop s.unit.takeNumber]) ∧
      (s.unit.state = .readout → b = false → (s.giveUpTile g b).unit.state = .readout ∧
        (s.giveUpTile g b).unit.context = s.unit.context.map (fun c => { c with disposal := true }) ∧
        (s.giveUpTile g b).sent = s.sent) ∧
      (s.unit.state = .readout → b = true → s.giveUpTile g b = s))) ∧
  (∀ (s : State) (g : Program) (b : Bool),
    let id : TileId := { tag := g.tag, index := g.nextTile }
    (g.captureStep = none → s.giveUpTile g b = s) ∧
    (g.captureStep = some .storeWait → s.giveUpTile g b =
      State.endCapture { s with allocWaiting := none } g.tag (some g.nextTile)) ∧
    (g.captureStep = some .unitWait → s.giveUpTile g b = (s.failTile id).endCapture g.tag (some g.nextTile)) ∧
    (g.captureStep = some .inUnit → s.unit.state ≠ .readout ∨ b = false →
      (s.holdsTile id = false → s.giveUpTile g b = (s.failTile id).endCapture g.tag (some g.nextTile)) ∧
      (s.holdsTile id = true → ∃ v : State, s.giveUpTile g b = (v.failTile id).endCapture g.tag (some g.nextTile) ∧
        v = { s with unit := v.unit, lamp := v.lamp, sent := v.sent }))) ∧
  (∀ (s : State) (g : Program) (pl : Plate) (failing : Option Nat), s.program? g.tag = some g →
    s.plate g.content.slot = some pl →
    let ended := fun (st : ProgramState) => { s.setPlate g.content.slot (some (pl.release g.tag).2) with
      programs := s.programs.map (fun x => if x.tag = g.tag then { x with
        state := st, captureStep := none, failingTile := failing, doseReleased := some (pl.release g.tag).1 } else x) }
    (0 < g.tilesInMerge → s.endCapture g.tag failing = ended .merging) ∧
    (g.tilesInMerge = 0 → s.endCapture g.tag failing = (ended .finished).deliverDone g.tag)) ∧
  (∀ (s : State) (g : Program), s.program? g.tag = some g →
    s.finishProgram g.tag = State.deliverDone { s with programs := s.programs.map (fun x =>
      if x.tag = g.tag then { x with state := .finished, captureStep := none } else x) } g.tag ∧
    ((s.port g.port).link = .up → (s.port g.port).outbound.length < 64 → s.deliverDone g.tag =
      { s.place g.port (programDone g) with
        programs := s.programs.filter (fun x => decide (x.tag ≠ g.tag))
        directory := s.directory.filter (fun x => !decide (x.id.tag = g.tag ∧ x.state = .failed)) }) ∧
    ((s.port g.port).link = .down ∨ 64 ≤ (s.port g.port).outbound.length → s.deliverDone g.tag = s)) ∧
  (∀ (s : State) (slot : Nat) (pl : Plate), s.plate slot = some pl →
    let racked := s.setPlate slot (some { pl with state := .racked, noticePending := none })
    (pl.state = .called → pl.programCount = 0 →
      (pl.noticePending ≠ none → s.withdrawCall slot = racked) ∧
      (pl.noticePending = none → s.withdrawCall slot = racked.place pl.handlerPort (.message
        { kind := .notice, code := .name (.code .callWithdrawn), tag := 0, status := none
          body := .callWithdrawn slot pl.accession }))) ∧
    (pl.state ≠ .called ∨ pl.programCount ≠ 0 → s.withdrawCall slot = s))

/-! ### Calibration -/

/-- CALIBRATE: the refusals of R108 in their order, and the accepted request with its context, its reply, the exposure
unit's context with one exposure of t_ref and the MOVE to (0, 0), not gentle. The context's next line, 0 before a lamp
phase has ended, is the model's choice (log 28). -/
def Obligations.CalibrateStartsOrRefuses : Prop :=
  ∀ (s : State) (p : Port) (m : Message) (rest : List Message) (tRef level width : Nat),
    Asks s p m rest (.calibrate tRef level width) →
    let u := s.taken p rest
    let busy := exec (.calibrate p) s = .next (u.reply p m .busy (.busy none none))
    let working := (∃ g ∈ s.programs, g.state = .running ∨ g.state = .merging) ∨ s.mergeQueue ≠ []
    (s.occupant ≠ none → exec (.calibrate p) s = .next (u.reply p m .stageOccupied .empty)) ∧
    (s.occupant = none →
      (s.calContext ≠ none → busy) ∧
      (s.calContext = none →
        (working → busy) ∧
        (¬ working →
          (s.unit.state ≠ .idle → busy) ∧
          (s.unit.state = .idle →
            (tRef < 100 ∨ 100000 < tRef → exec (.calibrate p) s = .next (u.reply p m .badField (.number 0))) ∧
            (100 ≤ tRef → tRef ≤ 100000 →
              (level = 0 ∨ 255 < level → exec (.calibrate p) s = .next (u.reply p m .badField (.number 4))) ∧
              (1 ≤ level → level ≤ 255 →
                (width < 64 ∨ 4096 < width ∨ ¬ 64 ∣ width →
                  exec (.calibrate p) s = .next (u.reply p m .badField (.number 6))) ∧
                (64 ≤ width → width ≤ 4096 → 64 ∣ width → ∃ t, exec (.calibrate p) s = .next t ∧
                  t.calContext = some { phase := .dark, port := p, tRef := tRef, level := level, width := width
                                        darkSum := 0, dark := none, columnSums := List.replicate width 0
                                        saturation := none } ∧
                  t.unit = { s.unit with
                    state := .moving, moveSeq := s.unit.moveSeq + 1, timer := .answer 50
                    context := some
                      { kind := .calDark, x := 0, y := 0, gentle := false, c0 := 0, width := width, height := 16
                        exposures := [{ step := none, time := tRef, cost := 0 }], current := 1, retakes := 0
                        level := level, attempt := 1, nextLine := 0, disposal := false, doseCharged := 0 } } ∧
                  t.sent = [.move (s.unit.moveSeq + 1) 0 0 false] ∧
                  t.ports = (u.reply p m .accepted (.calibration tRef level width)).ports ∧ t.cal = s.cal ∧
                  t.plates = s.plates)))))))

/-- The two frames of a calibration, each ended by the last good LINE of its take. The dark frame: DARK is the floor of the
mean of its samples; at 4096 or more the calibration fails CAL_DARK and reports it, and below that the light frame begins
at once, without a move. The light frame: a saturated column, then a weak column, fails the calibration and keeps the
record; otherwise the whole record is replaced, the generation rises by one, after 4,294,967,295 to 1, and CAL_DONE says
CALIBRATED with the least W and its lowest column. The end of a calibration discards the context and places or drops its
CAL_DONE; an accepted placement ends it CAL_INTERRUPTED, with the unit's work abandoned. In the context of the light frame
the next line 0, before a lamp phase has ended, and the move attempt 1, with no move, are the model's choice (log 28). -/
def Obligations.LightFrameIsJudgedInOrder : Prop :=
  (∀ (s : State) (k : CalContext),
    (∀ column, k.saturation = some column →
      s.lightFrameDone k = s.endCalibration k .saturated { column := some column, w := none, least := none }) ∧
    (k.saturation = none →
      (∀ column w, (netReferences k)[column]? = some w → w < 256 →
        (∀ j x, j < column → (netReferences k)[j]? = some x → 256 ≤ x) →
        s.lightFrameDone k = s.endCalibration k .weak { column := some column, w := some w, least := none }) ∧
      ((∀ w ∈ netReferences k, 256 ≤ w) → (s.lightFrameDone k).calContext = none ∧ (s.lightFrameDone k).cal =
        { generation := if s.cal.generation < 4294967295 then s.cal.generation + 1 else 1
          params := some { tRef := k.tRef, level := k.level, width := k.width, dark := k.dark.getD 0
                           table := (netReferences k).map logOf } }))) ∧
  (∀ (s : State) (k : CalContext) (w i : Nat), k.saturation = none → (∀ x ∈ netReferences k, 256 ≤ x) →
    (netReferences k)[i]? = some w → (∀ x ∈ netReferences k, w ≤ x) →
    (∀ j x, j < i → (netReferences k)[j]? = some x → w < x) →
    s.lightFrameDone k = State.endCalibration { s with cal :=
      { generation := if s.cal.generation < 4294967295 then s.cal.generation + 1 else 1
        params := some { tRef := k.tRef, level := k.level, width := k.width, dark := k.dark.getD 0
                         table := (netReferences k).map logOf } } } k .calibrated
        { column := none, w := none, least := some (w, i) }) ∧
  (∀ k : CalContext, netReferences k = k.columnSums.map (fun sum => sum / 16 - k.dark.getD 0)) ∧
  (∀ (s : State) (k : CalContext) (o : CalOutcome) (column w : Option Nat) (least : Option (Nat × Nat)),
    s.endCalibration k o { column := column, w := w, least := least } =
      State.place { s with calContext := none } k.port (.message
        { kind := .notice, code := .name (.code .calDone), tag := 0, status := none
          body := .calDone o s.cal.generation k.tRef k.level k.width k.dark column w least })) ∧
  (∀ (s : State) (k : CalContext),
    let dark := k.darkSum / (16 * k.width)
    (4096 ≤ dark → s.darkFrameDone k =
      s.endCalibration { k with dark := some dark } .dark { column := none, w := none, least := none }) ∧
    (dark < 4096 → s.darkFrameDone k = { s with
      calContext := some { k with phase := .light, dark := some dark }
      unit := { s.unit with
        state := .exposing, takeNumber := s.unit.takeNumber + 1, timer := .lamp k.tRef
        context := some
          { kind := .calLight, x := 0, y := 0, gentle := false, c0 := 0, width := k.width, height := 16
            exposures := [{ step := none, time := k.tRef, cost := 0 }], current := 1, retakes := 0, level := k.level
            attempt := 1, nextLine := 0, disposal := false, doseCharged := 0 } }
      lamp := { level := k.level, gateOpen := true }
      sent := s.sent ++ [.start (s.unit.takeNumber + 1) 0 k.width 16] })) ∧
  (∀ (s : State) (c : ExposureContext) (k : CalContext) (number count : BitVec 16) (samples : List Sample)
    (check : BitVec 16), s.unit.state = .readout → s.unit.context = some c → s.calContext = some k →
    lineGood c number count samples check = true → c.disposal = false → c.nextLine + 1 = c.height → 0 < c.nextLine →
    c.exposures.length ≤ c.current →
    let u := { s with
      sent := [], unit := { s.unit with state := .idle, context := none, timer := .stopped }
      lamp := { s.lamp with gateOpen := false } }
    let mark := samples.findIdx? (fun v => decide (v.toNat = 16383))
    let kDark := { k with darkSum := k.darkSum + (samples.map BitVec.toNat).sum }
    let kLight := { k with
      columnSums := List.zipWith (· + ·) k.columnSums (samples.map BitVec.toNat)
      saturation := match k.saturation, mark with
        | some a, some b => some (min a b)
        | some a, none => some a
        | none, b => b }
    (c.kind = .calDark → exec (.line s.unit.takeNumber number count samples check) s =
      .next (s.fresh.settle (State.darkFrameDone { u with calContext := some kDark } kDark))) ∧
    (c.kind = .calLight → exec (.line s.unit.takeNumber number count samples check) s =
      .next (s.fresh.settle (State.lightFrameDone { u with calContext := some kLight } kLight)))) ∧
  (∀ s : State,
    (s.calContext = none → s.interruptCalibration = s) ∧
    (∀ k, s.calContext = some k →
      let u := { s with
        unit := { s.unit with state := .idle, context := none, timer := .stopped }
        lamp := { s.lamp with gateOpen := false } }
      let ended := fun (v : State) => v.endCalibration k .interrupted { column := none, w := none, least := none }
      (∀ c, s.unit.context = some c → c.kind = .calDark ∨ c.kind = .calLight →
        (s.unit.state = .moving ∨ s.unit.state = .readout → s.interruptCalibration = ended u) ∧
        (s.unit.state = .exposing →
          s.interruptCalibration = ended { u with sent := s.sent ++ [.stop s.unit.takeNumber] })) ∧
      ((∀ c, s.unit.context = some c → c.kind ≠ .calDark ∧ c.kind ≠ .calLight) → s.interruptCalibration = ended s)))

/-! ### The exposure unit -/

/-- An answer on the instrument link with the sequence number of the last MOVE, in MOVING and not in the BUSY wait, and
the unit's timers there: MOVING restarts the answer timer; BUSY starts the wait or, with the limit reached, ends the move;
FAULT and the answer timer end it; at the end of the wait a new MOVE is sent. Any other answer is discarded. A move that
ends leaves the unit IDLE with no context and the gate shut, and its client learns of it: a tile fails with STAGE_FAULT, a
registration ends UNREADABLE, a calibration fails CAL_STAGE. -/
def Obligations.InstrumentAnswersInMoving : Prop :=
  (∀ (s : State) (seq : BitVec 8),
    (∀ c ms, s.unit.state = .moving → s.unit.context = some c → s.unit.timer = .answer ms → seq = s.unit.moveSeq →
      exec (.movingAnswer seq) s = .next (s.fresh.withTimer (.answer 50)) ∧
      (c.attempt < s.settings.retryLimit → exec (.busyAnswer seq) s = .next (s.fresh.withTimer (.busyWait 10))) ∧
      (s.settings.retryLimit ≤ c.attempt → exec (.busyAnswer seq) s = .next (s.fresh.settle (s.fresh.moveFails c))) ∧
      exec (.faultAnswer seq) s = .next (s.fresh.settle (s.fresh.moveFails c)) ∧
      exec (.doneAnswer seq) s = .next (s.fresh.settle (s.fresh.withTimer .stopped).beginExposure)) ∧
    (∀ c ms, s.unit.state = .moving → s.unit.context = some c → s.unit.timer = .answer ms →
      exec .answerTimerExpiry s = .next (s.fresh.settle (s.fresh.moveFails c))) ∧
    (∀ c ms, s.unit.state = .moving → s.unit.context = some c → s.unit.timer = .busyWait ms →
      ∃ t, exec .busyWaitExpiry s = .next t ∧
        t.unit = { s.unit with context := some { c with attempt := c.attempt + 1 }
                               moveSeq := s.unit.moveSeq + 1, timer := .answer 50 } ∧
        t.sent = [.move (s.unit.moveSeq + 1) c.x c.y c.gentle] ∧
        t = { s with unit := t.unit, sent := t.sent }) ∧
    (s.unit.state ≠ .moving ∨ seq ≠ s.unit.moveSeq ∨ (∃ ms, s.unit.timer = .busyWait ms) →
      exec (.movingAnswer seq) s = .next s.fresh ∧ exec (.busyAnswer seq) s = .next s.fresh ∧
      exec (.faultAnswer seq) s = .next s.fresh ∧ exec (.doneAnswer seq) s = .next s.fresh)) ∧
  (∀ (s : State) (c : ExposureContext),
    s.unitIdle = { s with
      unit := { s.unit with state := .idle, context := none, timer := .stopped }
      lamp := { s.lamp with gateOpen := false } } ∧
    (∀ id, c.kind = .tile id → s.moveFails c = s.unitIdle.captureFailed id .stageFault) ∧
    (∀ r, c.kind = .margin → s.registration = some r →
      s.moveFails c = s.unitIdle.endRegistration r .unreadable none 0) ∧
    (∀ k, c.kind = .calDark ∨ c.kind = .calLight → s.calContext = some k →
      s.moveFails c = s.unitIdle.endCalibration k .stage { column := none, w := none, least := none }))

/-- The charge of the exposure in hand for TILE work and its three answers, and the same for a retake: on a grant START is
sent with the next take number, the gate opens at the work's level and the lamp timer starts; on a refusal the unit is
IDLE, no START is sent and the capture controller is told. A program whose outcome is fixed is never charged again, even
where its plate is STAGED once more (the model's choice, log 26). MARGIN work likewise, by the unreserved charge of a
REGISTERING plate: on a grant the registration is EXPOSING, and a retake discards the samples; DOSE_LIMIT ends it DOSE.
A calibration frame is charged to no plate: START is sent with the next take number, the lamp timer runs for the frame's
time, and the gate opens for a light frame and is left as it is for a dark frame. -/
def Obligations.TileExposureIsCharged : Prop :=
  (∀ (s : State) (c : ExposureContext) (e : Exposure) (id : TileId) (g : Program) (pl : Plate),
    TileInHand s c e id g pl →
    let lost := s.unitIdle.captureFailed id .plateLost
    (∀ o, g.outcome = some o → s.beginExposure = lost ∧ s.retake c e = lost) ∧
    (g.outcome = none →
      (∀ pl', pl.programCharge id.tag e.cost = (.granted, pl') →
        s.beginExposure.plate g.content.slot = some pl' ∧
        s.beginExposure.unit = { s.unit with
          state := .exposing, context := some { c with doseCharged := c.doseCharged + e.cost }
          takeNumber := s.unit.takeNumber + 1, timer := .lamp e.time } ∧
        s.beginExposure.lamp = { level := c.level, gateOpen := true } ∧
        s.beginExposure.sent = s.sent ++ [.start (s.unit.takeNumber + 1) c.c0 c.width c.height] ∧
        s.beginExposure.programs =
          s.programs.map (fun x => if x.tag = id.tag then { x with doseCharged := x.doseCharged + e.cost } else x)) ∧
      (∀ pl', pl.programCharge id.tag e.cost = (.doseLimit, pl') →
        s.beginExposure = s.unitIdle.captureFailed id .doseLimit) ∧
      (∀ pl', pl.programCharge id.tag e.cost = (.notOnStage, pl') → s.beginExposure = lost) ∧
      (∀ pl', pl.unreservedCharge .staged e.cost = (.granted, pl') →
        (s.retake c e).plate g.content.slot = some pl' ∧
        (s.retake c e).unit = { s.unit with
          state := .exposing
          context := some { c with retakes := c.retakes + 1, doseCharged := c.doseCharged + e.cost }
          takeNumber := s.unit.takeNumber + 1, timer := .lamp e.time } ∧
        (s.retake c e).lamp = { level := c.level, gateOpen := true } ∧
        (s.retake c e).sent = s.sent ++ [.start (s.unit.takeNumber + 1) c.c0 c.width c.height] ∧
        (s.retake c e).programs =
          s.programs.map (fun x => if x.tag = id.tag then { x with doseCharged := x.doseCharged + e.cost } else x)) ∧
      (∀ pl', pl.unreservedCharge .staged e.cost = (.doseLimit, pl') →
        s.retake c e = s.unitIdle.captureFailed id .doseLimit) ∧
      (∀ pl', pl.unreservedCharge .staged e.cost = (.notOnStage, pl') → s.retake c e = lost))) ∧
  (∀ (s : State) (c : ExposureContext) (e : Exposure) (r : Registration) (pl : Plate), s.unit.context = some c →
    c.exposure? = some e → c.kind = .margin → s.registration = some r → s.plate r.slot = some pl →
    (∀ pl', pl.unreservedCharge .registering e.cost = (.granted, pl') →
      let lit := fun (c : ExposureContext) (r : Registration) => { s.setPlate r.slot (some pl') with
        unit := { s.unit with
          state := .exposing, context := some c, takeNumber := s.unit.takeNumber + 1, timer := .lamp e.time }
        lamp := { level := c.level, gateOpen := true }
        registration := some { r with phase := .exposing, doseCharged := r.doseCharged + e.cost }
        sent := s.sent ++ [.start (s.unit.takeNumber + 1) c.c0 c.width c.height] }
      s.beginExposure = lit c r ∧
      s.retake c e = lit { c with retakes := c.retakes + 1 } { r with retakes := r.retakes + 1, buffer := [] }) ∧
    (∀ pl', pl.unreservedCharge .registering e.cost = (.doseLimit, pl') →
      s.beginExposure = s.unitIdle.endRegistration r .dose none 0 ∧
      s.retake c e = s.unitIdle.endRegistration r .dose none 0) ∧
    (∀ pl', pl.unreservedCharge .registering e.cost = (.notOnStage, pl') →
      s.beginExposure = s.unitIdle ∧ s.retake c e = s.unitIdle)) ∧
  (∀ (s : State) (c : ExposureContext) (e : Exposure), s.unit.context = some c → c.exposure? = some e →
    let begun := fun (lamp : Lamp) => { s with
      unit := { s.unit with state := .exposing, takeNumber := s.unit.takeNumber + 1, timer := .lamp e.time }
      lamp := lamp
      sent := s.sent ++ [.start (s.unit.takeNumber + 1) c.c0 c.width c.height] }
    (c.kind = .calDark → s.beginExposure = begun s.lamp) ∧
    (c.kind = .calLight → s.beginExposure = begun { level := c.level, gateOpen := true }))

/-- LAMP_TIMER_EXPIRY in EXPOSING: the gate is shut, STOP is sent, READOUT begins at line 0 with the 100 ms line timer, and
a registration whose margin it is passes to READOUT. -/
def Obligations.LampTimerEndsExposure : Prop :=
  ∀ (s : State) (c : ExposureContext) (us : Nat), s.unit.state = .exposing → s.unit.timer = .lamp us →
    s.unit.context = some c → ∃ t, exec .lampTimerExpiry s = .next t ∧
    t.unit = { s.unit with state := .readout, context := some { c with nextLine := 0 }, timer := .line 100 } ∧
    t.lamp = { s.lamp with gateOpen := false } ∧ t.sent = [.stop s.unit.takeNumber] ∧
    (c.kind = .margin → t.registration = s.registration.map (fun r => { r with phase := .readout })) ∧
    (c.kind ≠ .margin → t.registration = s.registration) ∧
    t = { s with unit := t.unit, lamp := t.lamp, sent := t.sent, registration := t.registration }

/-- A good LINE of the current take in READOUT goes to its destination, the next line expected rises by one and the line
timer restarts; every byte of the pages outside the line's place in its raw chain stands, the rest of the state stands,
and in disposal nothing is stored. A line stored in a chain of distinct pages is read back as it was, the byte at an offset
of a chain standing in the page that the offset falls in; the low byte of a sample stands first (the model's choice,
log 8). The margin buffer is the list of the lines of the take (the model's reading, log 23). A line is good exactly by the
four points of R90, and, the model's own reading (log 22), when it carries as many samples as its count says. At the last
line of a good take the next exposure begins with its charge; after the last exposure the unit is IDLE and the tile is
CAPTURED, a registration passes to MEASURING, or a calibration frame is done; in disposal the unit becomes IDLE. A
CAPTURED tile joins the merge queue, as its head in an empty one, and the program goes on to its next tile in STORE_WAIT;
its capture ends with the last tile, COMPLETED, or where an outcome is already fixed. -/
def Obligations.GoodLineIsStored : Prop :=
  (∀ (s : State) (c : ExposureContext) (number count : BitVec 16) (samples : List Sample) (check : BitVec 16),
    s.unit.state = .readout → s.unit.context = some c → lineGood c number count samples check = true →
    ∃ v,
      (c.nextLine + 1 ≠ c.height →
        exec (.line s.unit.takeNumber number count samples check) s = .next (s.fresh.settle v)) ∧
      (c.nextLine + 1 = c.height → c.disposal = true →
        exec (.line s.unit.takeNumber number count samples check) s = .next (s.fresh.settle v.unitIdle)) ∧
      (c.nextLine + 1 = c.height → c.disposal = false →
        let answers := fun (w : State) =>
          exec (.line s.unit.takeNumber number count samples check) s = .next (s.fresh.settle w)
        (c.current < c.exposures.length → answers (State.beginExposure { v with unit := { v.unit with
          context := some { c with nextLine := c.nextLine + 1, current := c.current + 1, retakes := 0 } } })) ∧
        (c.exposures.length ≤ c.current →
          (∀ id, c.kind = .tile id → answers (v.unitIdle.captured id c.doseCharged)) ∧
          (c.kind = .margin → answers { v.unitIdle with
            registration := v.registration.map (fun r => { r with phase := .measuring }) }) ∧
          (∀ k, c.kind = .calDark → v.calContext = some k → answers (v.unitIdle.darkFrameDone k)) ∧
          (∀ k, c.kind = .calLight → v.calContext = some k → answers (v.unitIdle.lightFrameDone k)))) ∧
      v.unit = { s.unit with context := some { c with nextLine := c.nextLine + 1 }, timer := .line 100 } ∧
      v = { s with
        sent := [], unit := v.unit, pages := v.pages, registration := v.registration, calContext := v.calContext } ∧
      (c.disposal = true → v = { s with sent := [], unit := v.unit }) ∧
      (c.disposal = false →
        (∀ id t chain, c.kind = .tile id → s.tile? id = some t → t.raws[c.current - 1]? = some chain →
          v = { s with
            sent := [], unit := v.unit, pages := Memory.writeLine s.pages chain c.width c.nextLine samples } ∧
          ∀ a, (∀ j, j < 2 * c.width → Memory.chainAddress chain (c.nextLine * c.width * 2 + j) ≠ some a) →
            Memory.read v.pages a = Memory.read s.pages a) ∧
        (∀ r, c.kind = .margin → s.registration = some r → r.buffer.length = c.nextLine →
          v = { s with
            sent := [], unit := v.unit, registration := some { r with buffer := r.buffer ++ [samples] } }) ∧
        (∀ k, c.kind = .calDark → s.calContext = some k → v = { s with
          sent := [], unit := v.unit
          calContext := some { k with
            darkSum := (if c.nextLine = 0 then 0 else k.darkSum) + (samples.map BitVec.toNat).sum } }) ∧
        (∀ k, c.kind = .calLight → s.calContext = some k →
          let mark := samples.findIdx? (fun x => decide (x.toNat = 16383))
          (c.nextLine = 0 → v = { s with
            sent := [], unit := v.unit
            calContext := some { k with columnSums := samples.map BitVec.toNat, saturation := mark } }) ∧
          (0 < c.nextLine → v = { s with
            sent := [], unit := v.unit
            calContext := some { k with
              columnSums := List.zipWith (· + ·) k.columnSums (samples.map BitVec.toNat)
              saturation := match k.saturation, mark with
                | some a, some b => some (min a b)
                | some a, none => some a
                | none, b => b } })))) ∧
  (∀ (c : ExposureContext) (number count : BitVec 16) (samples : List Sample) (check : BitVec 16),
    lineGood c number count samples check = true ↔
      check.toNat = (number.toNat + (samples.map BitVec.toNat).sum) % 65536 ∧ number.toNat = c.nextLine ∧
      count.toNat = c.width ∧ samples.length = c.width ∧ ∀ v ∈ samples, v.toNat ≤ 16383) ∧
  (∀ (pages : List Host.Cell) (chain : List Nat) (width y : Nat) (samples : List (BitVec 16)), chain.Nodup →
    samples.length = width → (y + 1) * width * 2 ≤ 65536 * chain.length →
    let stored := Memory.writeLine pages chain width y samples
    Memory.readLine stored chain width y = samples ∧
    (∀ j v, samples[j]? = some v → ∃ page,
      let o := y * width * 2 + 2 * j
      chain[o / 65536]? = some page ∧ Memory.chainAddress chain o = some (page * 65536 + o % 65536) ∧
      Memory.chainAddress chain (o + 1) = some (page * 65536 + o % 65536 + 1) ∧
      (Memory.read stored (page * 65536 + o % 65536)).toNat = v.toNat % 256 ∧
      (Memory.read stored (page * 65536 + o % 65536 + 1)).toNat = v.toNat / 256)) ∧
  (∀ (s : State) (id : TileId) (dose : Nat) (g : Program) (d : TileDesc), s.program? id.tag = some g →
    g.content.tiles[id.index]? = some d →
    let joined := fun (f : TileEntry → TileEntry) => { s with
      directory := s.directory.map (fun x => if x.id = id then f x else x), mergeQueue := s.mergeQueue ++ [id] }
    (s.mergeQueue ≠ [] → s.joinMerge id dose = joined (fun x =>
      { x with state := .mergeWait, stats := x.stats.map (fun y => { y with dose := dose }) })) ∧
    (s.mergeQueue = [] → s.joinMerge id dose = { joined (fun x => { x with
        state := .merging, writer := true, fill := 0
        stats := x.stats.map (fun _ =>
          { normalCount := 0, underCount := 0, overCount := 0, gapCount := 0, negCount := 0, ceilCount := 0
            least := none, greatest := none, dose := dose, generation := g.generation
            rounding := some g.content.rounding, mergeMode := some g.content.mergeMode, baseFog := g.baseFogUsed }) }) with
      mergeContext := some
        { id := id, nextLine := 0, width := d.width, height := d.height, c0 := d.c0, bracket := d.bracket
          steps := g.content.brackets.getD d.bracket [], sat := g.content.sat, floor := g.content.floor
          rounding := g.content.rounding, mergeMode := g.content.mergeMode, marking := g.content.marking
          baseSubtraction := g.content.baseSubtraction, baseFog := g.baseFogUsed, generation := g.generation } })) ∧
  (∀ (s : State) (id : TileId) (dose : Nat) (g : Program), s.program? id.tag = some g →
    let next := id.index + 1
    let captured := fun (f : Program → Program) => { s.joinMerge id dose with
      programs := s.programs.map (fun x => if x.tag = id.tag then
        f { x with tilesInMerge := x.tilesInMerge + 1, nextTile := next } else x) }
    (g.outcome = none → next < g.content.tiles.length →
      s.captured id dose = captured (fun x => { x with captureStep := some .storeWait })) ∧
    (g.outcome = none → g.content.tiles.length ≤ next →
      s.captured id dose = (captured (fun x => { x with
        outcome := some (x.outcome.getD .completed) })).endCapture id.tag none) ∧
    (∀ o, g.outcome = some o → s.captured id dose = (captured (fun x => x)).endCapture id.tag
      (if next < g.content.tiles.length then some next else none)))

/-- A LINE that is not good, a SENSOR_ERROR of the current take and a line timer that runs out make the take faulty: in
EXPOSING STOP is sent and the gate shut first. A LINE or SENSOR_ERROR of another take is discarded. In disposal the unit
becomes IDLE at a faulty take; before the third faulty take of the exposure it is taken again; at the third the work ends
as SENSOR_FAULT, for each client. A tile that fails gives its pages back, output chain first, and its entry is FAILED
without chains; a joined drain's closing record FAILED joins its stream entry, takes a free entry or waits; WAITING entries
for the tile become FAILED. The consume field without a reader is the model's (log 27). The capture of the tile's program
then ends, with the cause for outcome unless one is fixed. -/
def Obligations.FaultyTakesAreRetakenTwice : Prop :=
  (∀ (s : State) (c : ExposureContext) (take : BitVec 8) (number count : BitVec 16) (samples : List Sample)
    (check : BitVec 16), s.unit.context = some c →
    (s.unit.state = .readout → take = s.unit.takeNumber → lineGood c number count samples check = false →
      exec (.line take number count samples check) s = .next (s.fresh.settle s.fresh.takeFaulty)) ∧
    (s.unit.state = .readout → take = s.unit.takeNumber →
      exec (.sensorError take) s = .next (s.fresh.settle s.fresh.takeFaulty)) ∧
    (∀ ms, s.unit.state = .readout → s.unit.timer = .line ms →
      exec .lineTimerExpiry s = .next (s.fresh.settle s.fresh.takeFaulty)) ∧
    (s.unit.state = .exposing → take = s.unit.takeNumber →
      exec (.line take number count samples check) s = .next (s.fresh.settle
        { s with sent := [.stop s.unit.takeNumber], lamp := { s.lamp with gateOpen := false } }.takeFaulty) ∧
      exec (.sensorError take) s = .next (s.fresh.settle
        { s with sent := [.stop s.unit.takeNumber], lamp := { s.lamp with gateOpen := false } }.takeFaulty)) ∧
    (take ≠ s.unit.takeNumber ∨ s.unit.state = .idle ∨ s.unit.state = .moving →
      exec (.line take number count samples check) s = .next s.fresh ∧ exec (.sensorError take) s = .next s.fresh)) ∧
  (∀ (s : State) (c : ExposureContext) (e : Exposure), s.unit.context = some c → c.exposure? = some e →
    (c.disposal = true → s.takeFaulty = s.unitIdle) ∧
    (c.disposal = false → c.retakes < 2 → s.takeFaulty = s.retake c e) ∧
    (c.disposal = false → 2 ≤ c.retakes →
      (∀ id, c.kind = .tile id → s.takeFaulty = s.unitIdle.captureFailed id .sensorFault) ∧
      (∀ r, c.kind = .margin → s.registration = some r →
        s.takeFaulty = s.unitIdle.endRegistration r .unreadable none 0) ∧
      (∀ k, c.kind = .calDark ∨ c.kind = .calLight → s.calContext = some k →
        s.takeFaulty = s.unitIdle.endCalibration k .sensor { column := none, w := none, least := none })) ∧
    (c.kind = .calDark ∨ c.kind = .calLight →
      (s.retake c e).unit = { s.unit with
        state := .exposing, context := some { c with retakes := c.retakes + 1 }
        takeNumber := s.unit.takeNumber + 1, timer := .lamp e.time } ∧
      (s.retake c e).sent = s.sent ++ [.start (s.unit.takeNumber + 1) c.c0 c.width c.height] ∧
      (c.kind = .calDark → (s.retake c e).lamp = s.lamp) ∧
      (c.kind = .calLight → (s.retake c e).lamp = { level := c.level, gateOpen := true }))) ∧
  (∀ (s : State) (id : TileId),
    (s.tile? id = none → s.failTile id = s) ∧
    (∀ t, s.tile? id = some t →
      let failed := { s with
        freePages := s.freePages ++ (t.output ++ t.raws.flatten)
        directory := s.directory.map (fun x => if x.id = id then { x with
          state := .failed, output := [], raws := [], fill := 0, reader := none, consume := false, stats := none } else x)
        entries := s.entries.map (fun e => if e.tile = id ∧ e.state = .waiting then
          { e with state := .failed, timer := some s.settings.discardTime } else e) }
      (t.reader = none → s.failTile id = failed) ∧
      (∀ p kind r, t.reader = some (p, kind) → (s.port p).read = some r →
        let record : CloseRecord :=
          { tile := r.tile, slot := t.slot, accession := t.accession, outcome := .failed, first := r.first
            delivered := r.delivered, stats := none }
        let closing : OutMessage :=
          { kind := .close, code := .byte 0, tag := r.tag, status := none, body := .close record }
        (∀ before x after, (s.port p).outbound = before ++ .stream x :: after → x.isOpen = true →
          (∀ e ∈ before ++ after, e.isOpenStream = false) →
          s.failTile id = failed.setPort p { s.port p with
            outbound := before ++ .stream { x with count := 0, close := some closing, isOpen := false } :: after
            read := none }) ∧
        ((∀ e ∈ (s.port p).outbound, e.isOpenStream = false) →
          ((s.port p).link = .up → (s.port p).outbound.length < 64 →
            s.failTile id = (failed.setPort p { s.port p with read := none }).place p (.message closing)) ∧
          ((s.port p).link = .down ∨ 64 ≤ (s.port p).outbound.length →
            s.failTile id = failed.setPort p { s.port p with
              read := some { r with outcome := some .failed, waitingClose := some record } }))))) ∧
  (∀ (s : State) (id : TileId) (o : ProgramOutcome), s.captureFailed id o =
    State.endCapture { s.failTile id with programs := s.programs.map (fun x =>
      if x.tag = id.tag then { x with outcome := some (x.outcome.getD o) } else x) } id.tag (some id.index))

/-! ### The tile store and the merge -/

/-- ALLOCATION_GRANT and WORK_HANDOVER as commands of their own (log 10), which change nothing where nothing waits or
can be served (log 3). In STORE_WAIT the current tile asks for its space while the merge queue holds fewer than 4.
ALLOCATION_GRANT: the waiting request is granted when enough pages and a directory entry are free; the chains are cut from
the head of the free list, the output chain first; the tile is in UNIT_WAIT and is handed to an IDLE unit at once. The
consume field of its entry is the model's (log 27). WORK_HANDOVER: a waiting tile, or else a waiting registration (the two
cannot wait at once, log 17), is handed to an IDLE exposure unit with its MOVE. The next line of its context, 0 before a
lamp phase has ended, is the model's choice (log 28). -/
def Obligations.WaitingWorkIsServed : Prop :=
  (∀ s : State,
    (s.allocWaiting = none → exec .allocationGrant s = .next s.fresh) ∧
    (∀ r, s.allocWaiting = some r →
      let pages := (r.width * r.height * 2 + 65535) / 65536
      (s.freePages.length < (1 + r.n) * pages ∨ 128 ≤ s.directory.length →
        exec .allocationGrant s = .next s.fresh) ∧
      ((1 + r.n) * pages ≤ s.freePages.length → s.directory.length < 128 →
        ∃ t raws, exec .allocationGrant s = .next t ∧
          t.freePages = s.freePages.drop ((1 + r.n) * pages) ∧ t.allocWaiting = none ∧
          raws.length = r.n ∧ (∀ chain ∈ raws, chain.length = pages) ∧
          raws.flatten = (s.freePages.drop pages).take (r.n * pages) ∧
          t.directory = s.directory ++ [
            { id := r.id, slot := r.slot, accession := r.accession, width := r.width, height := r.height, n := r.n
              state := .capturing, fill := 0, output := s.freePages.take pages, raws := raws, writer := false
              reader := none, consume := false
              stats := some { normalCount := 0, underCount := 0, overCount := 0, gapCount := 0, negCount := 0
                              ceilCount := 0, least := none, greatest := none, dose := 0, generation := none
                              rounding := none, mergeMode := none, baseFog := none } }] ∧
          t.pages = s.pages ∧ t.plates = s.plates ∧ t.ports = s.ports ∧
          (s.unit.state ≠ .idle → t.unit = s.unit ∧ t.sent = [] ∧ t.programs = s.programs.map (fun g =>
            if g.tag = r.id.tag then { g with captureStep := some .unitWait } else g)))) ∧
    (s.unit.state ≠ .idle → exec .workHandover s = .next s.fresh) ∧
    (∀ g c d pl, s.unit.state = .idle → s.running = some g → g.captureStep = some .unitWait → s.cal.params = some c →
      g.content.tiles[g.nextTile]? = some d → s.plate g.content.slot = some pl →
      ∃ t, exec .workHandover s = .next t ∧
        t.unit = { s.unit with
          state := .moving, moveSeq := s.unit.moveSeq + 1, timer := .answer 50
          context := some
            { kind := .tile { tag := g.tag, index := g.nextTile }, x := d.x, y := d.y
              gentle := decide (pl.condition = .flaking), c0 := d.c0, width := d.width, height := d.height
              exposures := (g.content.brackets.getD d.bracket []).map (fun e =>
                { step := some e, time := exposureTime c.tRef e
                  cost := exposureCost c.level (exposureTime c.tRef e) })
              current := 1, retakes := 0, level := c.level, attempt := 1, nextLine := 0, disposal := false
              doseCharged := 0 } } ∧
        t.sent = [.move (s.unit.moveSeq + 1) d.x d.y (decide (pl.condition = .flaking))] ∧
        t.programs = s.programs.map (fun x => if x.tag = g.tag then { x with captureStep := some .inUnit } else x) ∧
        t = { s with unit := t.unit, sent := t.sent, programs := t.programs }) ∧
    (∀ r c pl, s.unit.state = .idle → (∀ g, s.running = some g → g.captureStep ≠ some .unitWait) →
      s.registration = some r → r.phase = .waitUnit → s.cal.params = some c → s.plate r.slot = some pl →
      ∃ t, exec .workHandover s = .next t ∧ t.registration = some { r with phase := .moving } ∧
        t.unit = { s.unit with
          state := .moving, moveSeq := s.unit.moveSeq + 1, timer := .answer 50
          context := some
            { kind := .margin, x := 150, y := 150, gentle := decide (pl.condition = .flaking), c0 := r.offset
              width := 64, height := 64, exposures := [{ step := some r.step, time := r.time, cost := r.cost }]
              current := 1, retakes := 0, level := c.level, attempt := 1, nextLine := 0, disposal := false
              doseCharged := 0 } } ∧
        t.sent = [.move (s.unit.moveSeq + 1) 150 150 (decide (pl.condition = .flaking))] ∧
        t = { s with registration := t.registration, unit := t.unit, sent := t.sent })) ∧
  (∀ (s : State) (g : Program) (d : TileDesc) (pl : Plate), s.running = some g →
    g.content.tiles[g.nextTile]? = some d → s.plate g.content.slot = some pl →
    exec .allocationGrant s = .next s.fresh.grantWaiting ∧
    (g.captureStep = some .storeWait → s.allocWaiting = none →
      let request : AllocRequest :=
        { id := { tag := g.tag, index := g.nextTile }, slot := g.content.slot, accession := pl.accession
          width := d.width, height := d.height, n := (g.content.brackets.getD d.bracket []).length }
      (s.mergeQueue.length < 4 → s.tryAllocation = State.grantWaiting { s with allocWaiting := some request }) ∧
      (4 ≤ s.mergeQueue.length → s.tryAllocation = s)) ∧
    (s.allocWaiting ≠ none → s.tryAllocation = s.grantWaiting) ∧
    (g.captureStep ≠ some .storeWait → s.tryAllocation = s.grantWaiting)) ∧
  (∀ (s : State) (r : AllocRequest), s.unit.state = .idle → s.registration = none → s.allocWaiting = some r →
    let pages := (r.width * r.height * 2 + 65535) / 65536
    (1 + r.n) * pages ≤ s.freePages.length → s.directory.length < 128 →
      ∃ t, s.directory ++ [t] = (s.grant r).directory ∧ exec .allocationGrant s = exec .workHandover { s with
        freePages := s.freePages.drop ((1 + r.n) * pages), directory := s.directory ++ [t], allocWaiting := none
        programs := s.programs.map (fun g =>
          if g.tag = r.id.tag then { g with captureStep := some .unitWait } else g) })

/-- What follows an event: the examination where what the stage reports or the head program has changed, then the waiting
allocation, then the waiting client. It leaves the rest alone: it changes no page byte, no calibration, no setting, no
merge and no pending entry, no plate's budget or spent dose, and nothing of the exposure unit while that is not IDLE;
where nothing waits and no report is due it changes nothing, the unit IDLE or not. -/
def Obligations.FollowUpLeavesTheRestAlone : Prop :=
  (∀ s0 s : State,
    (s0.settle s).cal = s.cal ∧ (s0.settle s).calContext = s.calContext ∧ (s0.settle s).settings = s.settings ∧
    (s0.settle s).mergeQueue = s.mergeQueue ∧ (s0.settle s).mergeContext = s.mergeContext ∧
    (s0.settle s).pages = s.pages ∧ (s0.settle s).entries = s.entries ∧ (s0.settle s).tagCounter = s.tagCounter ∧
    (∀ slot pl, s.plate slot = some pl → ∃ pl', (s0.settle s).plate slot = some pl' ∧
      pl'.budget = pl.budget ∧ pl'.spent = pl.spent ∧ pl'.keeps = pl.keeps ∧ pl'.baseFog = pl.baseFog) ∧
    (s.unit.state ≠ .idle → (s0.settle s).unit = s.unit ∧ (s0.settle s).lamp = s.lamp ∧ (s0.settle s).sent = s.sent ∧
      (s0.settle s).registration = s.registration) ∧
    (s.unit.state ≠ .idle → s.stageView = s0.stageView →
      s.headProgram.map (·.tag) = s0.headProgram.map (·.tag) → s.allocWaiting = none →
      (∀ g, s.running = some g → g.captureStep ≠ some .storeWait) → s0.settle s = s)) ∧
  (∀ s0 s : State,
    let same := s.stageView = s0.stageView ∧ s.headProgram.map (·.tag) = s0.headProgram.map (·.tag)
    (same → s0.settle s = s.tryAllocation.offerUnit) ∧
    (¬ same → s0.settle s = s.examine.tryAllocation.offerUnit) ∧
    (same → s.allocWaiting = none →
      (∀ g, s.running = some g → g.captureStep ≠ some .storeWait ∧ g.captureStep ≠ some .unitWait) →
      (∀ r, s.registration = some r → r.phase ≠ .waitUnit) → s0.settle s = s) ∧
    exec .workHandover s = .next s.fresh.offerUnit) ∧
  (∀ s : State, s.stageView = s.stagePlate.map (fun ip => (ip.1, ip.2.state, ip.2.hasHold)))

/-- LINE_EVENT: the next line of the head tile is written to its output chain, the fill count and the statistics take it
in (the six counts, and the least and greatest NORMAL code), each eighth line is offered as a preview to each port whose
flag is set and whose window covers the slot, and a burst is judged for the reader. At the last line the tile is COMPLETE,
its raw chains go back to the tail of the free list, a WAITING entry turns READY where no reader is joined, TILE_READY goes
to the ports whose windows cover the slot with the flag of R192, the program counts the tile, becoming FINISHED with its
last one in MERGING, and the next tile becomes head and begins its merge. -/
def Obligations.LineEventMergesALine : Prop :=
  (∀ (s : State) (c : MergeContext) (k : CalParams) (t : TileEntry),
    s.mergeContext = some c → s.cal.params = some k → s.tile? c.id = some t →
    let samples := s.mergedLine c k t
    let written := Memory.writeLine s.pages t.output c.width c.nextLine (samples.map (fun x => BitVec.ofNat 16 x.2))
    (∀ a, (∀ j, j < 2 * c.width → Memory.chainAddress t.output (c.nextLine * c.width * 2 + j) ≠ some a) →
      Memory.read written a = Memory.read s.pages a) ∧
    (c.nextLine + 1 < c.height → ∃ v, exec .lineEvent s = .next v ∧ v.pages = written ∧
      v.mergeContext = some { c with nextLine := c.nextLine + 1 } ∧
      v.tile? c.id = some { t with
        fill := c.nextLine + 1, stats := t.stats.map (fun (u : TileStats) => u.addLine samples) } ∧
      v.plates = s.plates ∧ v.programs = s.programs ∧ v.unit = s.unit ∧ v.freePages = s.freePages ∧
      v.entries = s.entries ∧ v.cal = s.cal ∧ v.mergeQueue = s.mergeQueue ∧ v.sent = []) ∧
    (∀ rest, c.nextLine + 1 = c.height → s.mergeQueue = c.id :: rest → c.id ∉ rest →
      ∃ v, exec .lineEvent s = .next (s.fresh.settle v) ∧ v.pages = written ∧
        v.tile? c.id = some { t with
          fill := c.height, stats := t.stats.map (fun (u : TileStats) => u.addLine samples), state := .complete
          writer := false, raws := [] } ∧
        v.freePages = s.freePages ++ t.raws.flatten ∧ v.mergeQueue = rest ∧
        (∀ next, v.mergeContext = some next → rest.head? = some next.id ∧ next.nextLine = 0) ∧
        v.plates = s.plates ∧ v.unit = s.unit ∧ v.cal = s.cal ∧ v.sent = [])) ∧
  (∀ (u : TileStats) (xs : List (SampleClass × Nat)),
    let w := u.addLine xs
    w.normalCount + w.underCount + w.overCount + w.gapCount + w.negCount + w.ceilCount =
      u.normalCount + u.underCount + u.overCount + u.gapCount + u.negCount + u.ceilCount + xs.length ∧
    w.dose = u.dose ∧ w.normalCount = u.normalCount + xs.countP (fun x => decide (x.1 = .normal))) ∧
  (∀ (s : State) (c : MergeContext) (k : CalParams) (t : TileEntry),
    s.mergeContext = some c → s.cal.params = some k → s.tile? c.id = some t →
    let samples := s.mergedLine c k t
    let codes := samples.map (fun x => BitVec.ofNat 16 x.2)
    let covers := fun (p : Port) => (s.port p).windowBase ≤ t.slot ∧ t.slot ≤ (s.port p).windowLimit
    let offer := fun (u : State) (p : Port) => if (s.port p).previewFlag = true ∧ covers p then
      u.place p (.message { kind := .preview, code := .byte 0, tag := 0, status := none
                            body := .preview c.id t.slot c.nextLine
                              ((List.range (c.width / 8)).map (fun i => codes.getD (8 * i) 0)) }) else u
    let judged := fun (u : State) => match t.reader with
      | some (p, _) => u.judgeBurst p
      | none => u
    let merged := { s with
      sent := [], pages := Memory.writeLine s.pages t.output c.width c.nextLine codes
      directory := s.directory.map (fun x => if x.id = c.id then { x with
        fill := c.nextLine + 1, stats := x.stats.map (fun (y : TileStats) => y.addLine samples) } else x) }
    let line := judged (if c.nextLine % 8 = 0 then offer (offer (offer merged .p0) .p1) .p2 else merged)
    (c.nextLine + 1 < c.height →
      exec .lineEvent s = .next { line with mergeContext := some { c with nextLine := c.nextLine + 1 } }) ∧
    (c.height ≤ c.nextLine + 1 →
      let complete := { line with
        freePages := s.freePages ++ t.raws.flatten
        directory := line.directory.map (fun x => if x.id = c.id then { x with
          state := .complete, writer := false, raws := [] } else x)
        entries := if t.reader = none then s.entries.map (fun e => if e.tile = c.id ∧ e.state = .waiting then
          { e with state := .ready, timer := some s.settings.discardTime } else e) else s.entries }
      let flag : Port → EntryFlag × Nat := fun p =>
        match complete.entries.find? (fun e => decide (e.tile = c.id) && decide (e.state = .ready)) with
        | some e => if e.port = p then (.heldForYou, e.timer.getD 0) else (.heldForOther, 0)
        | none => match t.reader with
          | some (q, .drain) => if q = p then (.unheld, 0) else (.heldForOther, 0)
          | _ => (.unheld, 0)
      let tell := fun (u : State) (p : Port) => if covers p then
        u.place p (.message { kind := .notice, code := .name (.code .tileReady), tag := 0, status := none
                              body := .tileReady c.id t.slot t.accession t.width t.height (flag p).1 (flag p).2 }) else u
      exec .lineEvent s = .next (s.fresh.settle
        ((judged (tell (tell (tell complete .p0) .p1) .p2)).countCompleted c.id.tag).nextHead))) ∧
  (∀ (s : State) (g : Program), s.program? g.tag = some g →
    let counted := { s with programs := s.programs.map (fun x => if x.tag = g.tag then
      { x with tilesInMerge := x.tilesInMerge - 1, tilesCompleted := x.tilesCompleted + 1 } else x) }
    (g.state = .merging → g.tilesInMerge ≤ 1 → s.countCompleted g.tag = counted.finishProgram g.tag) ∧
    (g.state ≠ .merging ∨ 1 < g.tilesInMerge → s.countCompleted g.tag = counted)) ∧
  (∀ (s : State) (head : TileId),
    (s.mergeQueue = [head] → s.nextHead = { s with mergeQueue := [], mergeContext := none }) ∧
    (∀ id rest g d, s.mergeQueue = head :: id :: rest → s.program? id.tag = some g →
      g.content.tiles[id.index]? = some d → s.nextHead = { s with
        mergeQueue := id :: rest
        directory := s.directory.map (fun x => if x.id = id then { x with
          state := .merging, writer := true, fill := 0
          stats := x.stats.map (fun y =>
            { normalCount := 0, underCount := 0, overCount := 0, gapCount := 0, negCount := 0, ceilCount := 0
              least := none, greatest := none, dose := y.dose, generation := g.generation
              rounding := some g.content.rounding, mergeMode := some g.content.mergeMode
              baseFog := g.baseFogUsed }) } else x)
        mergeContext := some
          { id := id, nextLine := 0, width := d.width, height := d.height, c0 := d.c0, bracket := d.bracket
            steps := g.content.brackets.getD d.bracket [], sat := g.content.sat, floor := g.content.floor
            rounding := g.content.rounding, mergeMode := g.content.mergeMode, marking := g.content.marking
            baseSubtraction := g.content.baseSubtraction, baseFog := g.baseFogUsed, generation := g.generation } })) ∧
  (∀ (u : TileStats) (xs : List (SampleClass × Nat)),
    let w := u.addLine xs
    let count := fun (c : SampleClass) => xs.countP (fun x => decide (x.1 = c))
    let normal := (xs.filter (fun x => decide (x.1 = .normal))).map (·.2)
    w.underCount = u.underCount + count .under ∧ w.overCount = u.overCount + count .above ∧
    w.gapCount = u.gapCount + count .gap ∧ w.negCount = u.negCount + count .neg ∧
    w.ceilCount = u.ceilCount + count .ceil ∧
    w.least = (u.least.toList ++ normal).min? ∧ w.greatest = (u.greatest.toList ++ normal).max?) ∧
  (∀ (s : State) (c : MergeContext) (k : CalParams) (t : TileEntry), s.mergedLine c k t =
    (List.range c.width).map (fun x => density
      { steps := c.steps, dark := k.dark, sat := c.sat, floor := c.floor, rounding := c.rounding
        mergeMode := c.mergeMode, marking := c.marking, fog := if c.baseSubtraction then c.baseFog else none }
      (k.table.getD (c.c0 + x) 0)
      (t.raws.map (fun chain => ((Memory.readLine s.pages chain c.width c.nextLine).getD x 0).toNat))))

/-- DISCARD_TILE by the rows of R162: what a tile that is not complete, a read or held tile, a free COMPLETE tile and a
FAILED tile answer. -/
def Obligations.DiscardTileByRows : Prop :=
  ∀ (s : State) (p : Port) (m : Message) (rest : List Message) (id : TileId), Asks s p m rest (.discardTile id) →
    let u := s.taken p rest
    let others := s.directory.filter (fun x => decide (x.id ≠ id))
    (s.tile? id = none → exec (.discardTile p) s = .next (u.reply p m .unknownTile .empty)) ∧
    (∀ t, s.tile? id = some t →
      (t.state = .capturing ∨ t.state = .mergeWait ∨ t.state = .merging →
        exec (.discardTile p) s = .next (u.reply p m .busy (.busy (some t.state) none))) ∧
      (t.state = .complete →
        (∀ q kind, t.reader = some (q, kind) →
          exec (.discardTile p) s = .next (u.reply p m .busy (.busy (some .complete) (some q)))) ∧
        (∀ before e after, t.reader = none → s.entries = before ++ e :: after → e.tile = id → e.state = .ready →
          (∀ x ∈ before, x.tile = id → x.state ≠ .ready) →
          exec (.discardTile p) s = .next (u.reply p m .busy (.busy (some .complete) (some e.port)))) ∧
        (t.reader = none → (∀ x ∈ s.entries, x.tile = id → x.state ≠ .ready) →
          exec (.discardTile p) s = .next (u.settle
            (State.reply { u with freePages := s.freePages ++ t.output, directory := others } p m .ok
              (.pages t.output.length))))) ∧
      (t.state = .failed →
        exec (.discardTile p) s = .next (u.settle (State.reply { u with directory := others } p m .ok (.pages 0)))))

/-! ### Fetching and draining -/

/-- FETCH_TILE by the rows of R173, with the read that an accepted fetch opens. On a link that is DOWN it is discarded. -/
def Obligations.FetchTileByRows : Prop :=
  ∀ (s : State) (p : Port) (m : Message) (rest : List Message) (id : TileId) (consume : Bool),
    Asks s p m rest (.fetchTile id consume) →
    let u := s.taken p rest
    let own := s.ownEntry p id
    let covered := fun slot => (s.port p).windowBase ≤ slot ∧ slot ≤ (s.port p).windowLimit
    let unentered := { u with entries := s.entries.filter (fun e => !(decide (e.port = p) && decide (e.tile = id))) }
    let streams := fun (v : State) (t : TileEntry) => ∃ w, exec (.fetchTile p) s = .next w ∧
      w = { v with
        directory := s.directory.map (fun x => if x.id = id then { x with reader := some (p, .fetch), consume := consume } else x)
        ports := w.ports } ∧ OtherPortsKept p s w ∧ (w.port p).inbound = rest ∧
      (w.port p).read = some { tile := id, tag := m.tag, kind := .fetch, consume := consume, first := 0
                               endLine := t.height, mode := .freeRun, threshold := none, position := t.height
                               delivered := 0, outcome := none, waitingClose := none } ∧
      (w.port p).outbound = (s.port p).outbound ++ [.stream
        { reply := some { kind := .reply, code := m.code, tag := m.tag, status := some .accepted
                          body := .fetchAccepted id t.width t.height }
          tile := id, tag := m.tag, first := 0, count := t.height, close := none, isOpen := true }]
    ((s.port p).link = .down → exec (.fetchTile p) s = .next u) ∧
    ((s.port p).link = .up →
      (s.tile? id = none → own = none → exec (.fetchTile p) s = .next (u.reply p m .unknownTile .empty)) ∧
      (∀ e, s.tile? id = none → own = some e →
        (¬ covered e.slot → exec (.fetchTile p) s = .next (u.reply p m .window .empty)) ∧
        (covered e.slot → e.state = .failed → exec (.fetchTile p) s = .next (unentered.reply p m .failed .empty))) ∧
      (∀ t, s.tile? id = some t →
        (¬ covered t.slot → exec (.fetchTile p) s = .next (u.reply p m .window .empty)) ∧
        (covered t.slot →
          ((∃ e, own = some e ∧ e.state = .failed) ∨ t.state = .failed →
            exec (.fetchTile p) s = .next (unentered.reply p m .failed .empty)) ∧
          (t.state = .complete →
            (∀ e, own = some e → e.state = .ready → (s.port p).read = none → streams unentered t) ∧
            (∀ e, own = some e → e.state = .ready → (s.port p).read ≠ none →
              exec (.fetchTile p) s = .next (u.reply p m .busy (.busy (some .complete) (some p)))) ∧
            (∀ e, own = some e → e.state = .waiting →
              exec (.fetchTile p) s = .next (u.reply p m .pending (.tileState .complete))) ∧
            (own = none →
              (∀ q kind, t.reader = some (q, kind) →
                exec (.fetchTile p) s = .next (u.reply p m .busy (.busy (some .complete) (some q)))) ∧
              (t.reader = none →
                (∀ before e after, s.entries = before ++ e :: after → e.tile = id → e.state ≠ .waiting →
                  (∀ x ∈ before, x.tile = id → x.state = .waiting) →
                  exec (.fetchTile p) s = .next (u.reply p m .busy (.busy (some .complete) (some e.port)))) ∧
                ((∀ x ∈ s.entries, x.tile = id → x.state = .waiting) →
                  ((s.port p).read ≠ none →
                    exec (.fetchTile p) s = .next (u.reply p m .busy (.busy (some .complete) (some p)))) ∧
                  ((s.port p).read = none → streams u t))))) ∧
          (t.state = .capturing ∨ t.state = .mergeWait ∨ t.state = .merging →
            (∀ e, own = some e → e.state = .waiting →
              exec (.fetchTile p) s = .next (u.reply p m .pending (.tileState t.state))) ∧
            (own = none →
              (∀ kind, t.reader = some (p, kind) →
                exec (.fetchTile p) s = .next (u.reply p m .busy (.busy (some t.state) (some p)))) ∧
              ((∀ kind, t.reader ≠ some (p, kind)) →
                (∀ before e after, s.entries = before ++ e :: after → e.tile = id → (∀ x ∈ before, x.tile ≠ id) →
                  exec (.fetchTile p) s = .next (u.reply p m .busy (.busy (some t.state) (some e.port)))) ∧
                ((∀ x ∈ s.entries, x.tile ≠ id) →
                  (8 ≤ s.entries.length →
                    exec (.fetchTile p) s = .next (u.reply p m .busy (.busy (some t.state) none))) ∧
                  (s.entries.length < 8 → exec (.fetchTile p) s = .next (State.reply { u with
                    entries := s.entries ++ [{ port := p, tile := id, slot := t.slot, state := .waiting, timer := none }] }
                    p m .pending (.tileState t.state))))))))))

/-- OPEN_DRAIN by the rows of R184, with the read that an accepted drain opens under the threshold and the count in force,
before the burst rule is judged for it. On a link that is DOWN it is discarded. -/
def Obligations.OpenDrainByRows : Prop :=
  ∀ (s : State) (p : Port) (m : Message) (rest : List Message) (id : TileId) (threshold count start : Nat)
    (consume : Bool), Asks s p m rest (.openDrain id threshold count start consume) →
    let u := s.taken p rest
    let own := s.ownEntry p id
    let covered := fun slot => (s.port p).windowBase ≤ slot ∧ slot ≤ (s.port p).windowLimit
    let unentered := { u with entries := s.entries.filter (fun e => !(decide (e.port = p) && decide (e.tile = id))) }
    ((s.port p).link = .down → exec (.openDrain p) s = .next u) ∧
    ((s.port p).link = .up →
      (s.tile? id = none → own = none → exec (.openDrain p) s = .next (u.reply p m .unknownTile .empty)) ∧
      (∀ e, s.tile? id = none → own = some e →
        (¬ covered e.slot → exec (.openDrain p) s = .next (u.reply p m .window .empty)) ∧
        (covered e.slot → e.state = .failed → exec (.openDrain p) s = .next (unentered.reply p m .failed .empty))) ∧
      (∀ t, s.tile? id = some t →
        (¬ covered t.slot → exec (.openDrain p) s = .next (u.reply p m .window .empty)) ∧
        (covered t.slot →
          ((∃ e, own = some e ∧ e.state = .failed) ∨ t.state = .failed →
            exec (.openDrain p) s = .next (unentered.reply p m .failed .empty)) ∧
          ((∀ e, own = some e → e.state ≠ .failed) → t.state ≠ .failed →
            (t.height ≤ start → exec (.openDrain p) s = .next (u.reply p m .badField (.number 8))) ∧
            (start < t.height →
              (∀ q kind, t.reader = some (q, kind) →
                exec (.openDrain p) s = .next (u.reply p m .busy (.busy (some t.state) (some q)))) ∧
              (t.reader = none →
                (∀ before e after, s.entries = before ++ e :: after → e.port ≠ p → e.tile = id → e.state ≠ .waiting →
                  (∀ x ∈ before, x.port ≠ p → x.tile = id → x.state = .waiting) →
                  exec (.openDrain p) s = .next (u.reply p m .busy (.busy (some t.state) (some e.port)))) ∧
                ((∀ x ∈ s.entries, x.port ≠ p → x.tile = id → x.state = .waiting) →
                  ((s.port p).read ≠ none →
                    exec (.openDrain p) s = .next (u.reply p m .busy (.busy (some t.state) (some p)))) ∧
                  ((s.port p).read = none →
                    let T := if threshold < 1 then 1 else if 256 < threshold then 256 else threshold
                    let K := if count = 0 then 0 else if t.height < start + count then t.height - start else count
                    ∃ v, exec (.openDrain p) s = .next (v.judgeBurst p) ∧
                      v = { unentered with
                        directory := s.directory.map (fun x =>
                          if x.id = id then { x with reader := some (p, .drain), consume := consume } else x)
                        ports := v.ports } ∧ OtherPortsKept p s v ∧ (v.port p).inbound = rest ∧
                      (v.port p).read = some
                        { tile := id, tag := m.tag, kind := .drain, consume := consume, first := start
                          endLine := if count = 0 then t.height else start + K
                          mode := if count = 0 then .freeRun else .count, threshold := some T, position := start
                          delivered := 0, outcome := none, waitingClose := none } ∧
                      (v.port p).outbound = (s.port p).outbound ++ [.stream
                        { reply := some { kind := .reply, code := m.code, tag := m.tag, status := some .accepted
                                          body := .drainAccepted id t.width t.height t.state T K start }
                          tile := id, tag := m.tag, first := start, count := 0, close := none, isOpen := true }]))))))))

/-- The burst rule: U merged lines owed, R still owed; a due burst joins the standing stream entry, or takes a free entry,
or waits; the position rises by U in the first two cases, and nothing changes otherwise. -/
def Obligations.BurstTakesMergedLines : Prop :=
  ∀ (s : State) (p : Port) (r : Read) (t : TileEntry), (s.port p).read = some r → s.tile? r.tile = some t →
    let U := min t.fill r.endLine - r.position
    let R := r.endLine - r.position
    let due := r.kind = .drain ∧ r.outcome = none ∧
      (r.threshold.getD 1 ≤ U ∨ (R ≤ U ∧ 0 < R) ∨ (t.state = .complete ∧ 0 < U))
    (¬ due → s.judgeBurst p = s) ∧
    (due →
      (∀ before x after, (s.port p).outbound = before ++ .stream x :: after → x.isOpen = true →
        (∀ e ∈ before ++ after, e.isOpenStream = false) →
        s.judgeBurst p = s.setPort p { s.port p with
          read := some { r with position := r.position + U }
          outbound := before ++ .stream { x with
            first := if x.count = 0 then r.position else x.first, count := x.count + U } :: after }) ∧
      ((∀ e ∈ (s.port p).outbound, e.isOpenStream = false) →
        ((s.port p).link = .up → (s.port p).outbound.length < 64 → ∃ q, s.judgeBurst p = s.setPort p q ∧
          q.read = some { r with position := r.position + U } ∧
          q.outbound = (s.port p).outbound ++ [.stream
            { reply := none, tile := r.tile, tag := r.tag, first := r.position, count := U, close := none
              isOpen := true }] ∧
          q.inbound = (s.port p).inbound ∧ q.link = .up) ∧
        ((s.port p).link = .down ∨ 64 ≤ (s.port p).outbound.length → s.judgeBurst p = s)))

/-- STOP_READ: NO_READ without a read; otherwise the read ends STOPPED, the lines not delivered are cancelled, an unsent
opening reply stays, the closing record goes to the tail with the tag of STOP_READ (log 12), and the reader is released,
which may turn a WAITING entry READY; so too for a drain whose stream entry has left the list, and
for a read that still waits with its FAILED record, whose reader is released already. The consume field without
a reader is the model's (log 27). -/
def Obligations.StopReadEndsRead : Prop :=
  ∀ (s : State) (p : Port) (m : Message) (rest : List Message), Asks s p m rest .stopRead →
    let u := s.taken p rest
    ((s.port p).read = none → exec (.stopRead p) s = .next (u.reply p m .noRead .empty)) ∧
    (∀ r t before x after, (s.port p).link = .up → (s.port p).read = some r → s.tile? r.tile = some t →
      t.reader = some (p, r.kind) → (s.port p).outbound = before ++ .stream x :: after → x.isOpen = true →
      (∀ e ∈ before ++ after, e.isOpenStream = false) →
      ∃ v, exec (.stopRead p) s = .next (u.settle
          (((v.modTile r.tile (fun t => { t with reader := none, consume := false })).entryTurnsReady
            r.tile).serveClaims p)) ∧
        (v.port p).read = none ∧ (v.port p).inbound = rest ∧ (v.port p).link = .up ∧
        (v.port p).outbound = before ++
          (if x.reply.isSome then [.stream { x with count := 0, isOpen := false }] else []) ++ after ++
          [.message { kind := .close, code := .byte 0, tag := m.tag, status := none
                      body := .close { tile := r.tile, slot := t.slot, accession := t.accession, outcome := .stopped
                                       first := r.first, delivered := r.delivered, stats := none } }] ∧
        OnlyPorts u v ∧ OtherPortsKept p s v) ∧
    (∀ r t, (s.port p).link = .up → (s.port p).read = some r → s.tile? r.tile = some t →
      t.reader = some (p, r.kind) → (∀ e ∈ (s.port p).outbound, e.isOpenStream = false) →
      ∃ v, exec (.stopRead p) s = .next (u.settle
          (((v.modTile r.tile (fun t => { t with reader := none, consume := false })).entryTurnsReady
            r.tile).serveClaims p)) ∧
        (v.port p).read = none ∧ (v.port p).inbound = rest ∧ (v.port p).link = .up ∧
        (v.port p).outbound = (s.port p).outbound ++
          [.message { kind := .close, code := .byte 0, tag := m.tag, status := none
                      body := .close { tile := r.tile, slot := t.slot, accession := t.accession, outcome := .stopped
                                       first := r.first, delivered := r.delivered, stats := none } }] ∧
        OnlyPorts u v ∧ OtherPortsKept p s v) ∧
    (∀ r t record, (s.port p).link = .up → (s.port p).read = some r → r.waitingClose = some record →
      s.tile? r.tile = some t → t.reader = none → (∀ e ∈ (s.port p).outbound, e.isOpenStream = false) →
      ∃ v, exec (.stopRead p) s = .next (u.settle (v.serveClaims p)) ∧
        (v.port p).read = none ∧ (v.port p).inbound = rest ∧ (v.port p).link = .up ∧
        (v.port p).outbound = (s.port p).outbound ++
          [.message { kind := .close, code := .byte 0, tag := m.tag, status := none
                      body := .close { tile := r.tile, slot := t.slot, accession := t.accession, outcome := .stopped
                                       first := r.first, delivered := r.delivered, stats := none } }] ∧
        OnlyPorts u v ∧ OtherPortsKept p s v)

/-- A WAITING entry for a COMPLETE tile with no reader becomes READY with its timer at the discard time, and a
TILE_READY is due to its port (as a command of its own by the model's choice, log 10); ENTRY_EXPIRY removes an entry
whose timer runs and leaves the tile as it stands. -/
def Obligations.EntryBecomesReadyAndExpires : Prop :=
  ∀ (s : State) (id : TileId),
    (∀ t before e after, s.tile? id = some t → t.state = .complete → t.reader = none →
      s.entries = before ++ e :: after → e.tile = id → e.state = .waiting → (∀ x ∈ before ++ after, x.tile ≠ id) →
      let turned := { s.fresh with
        entries := before ++ { e with state := .ready, timer := some s.settings.discardTime } :: after }
      ((s.port e.port).windowBase ≤ t.slot ∧ t.slot ≤ (s.port e.port).windowLimit →
        exec (.entryReady id) s = .next (turned.place e.port (.message
          { kind := .notice, code := .name (.code .tileReady), tag := 0, status := none
            body := .tileReady id t.slot t.accession t.width t.height .heldForYou s.settings.discardTime }))) ∧
      (t.slot < (s.port e.port).windowBase ∨ (s.port e.port).windowLimit < t.slot →
        exec (.entryReady id) s = .next turned)) ∧
    ((s.tile? id = none ∨ (∃ t, s.tile? id = some t ∧ (t.state ≠ .complete ∨ t.reader ≠ none)) ∨
      (∀ e ∈ s.entries, e.tile = id → e.state ≠ .waiting)) → exec (.entryReady id) s = .next s.fresh) ∧
    (∀ before e after ms, s.entries = before ++ e :: after → e.tile = id → e.timer = some ms →
      (∀ x ∈ before ++ after, x.tile ≠ id) →
      exec (.entryExpiry id) s = .next { s with entries := before ++ after, sent := [] })

/-- The four kinds of item that wait for a free entry of a port's list, each served only when none before it in R204's
order waits, and none where the port can take no entry. Serving them one event at a time is the model's reading
(log 10). After an event that frees entries they are served inside it, in the same order, until no entry is free or no
claim waits; then an UP link in the middle of no message begins its oldest RETRY_LATER, or else the entry at the front
(what it is in the middle of is the model's field, log 13), and the follow-up of the event is made. The held program of a
port is its oldest FINISHED one. -/
def Obligations.FreeEntryClaimsInOrder : Prop :=
  (∀ (s : State) (p : Port),
    ((s.port p).link = .down ∨ 64 ≤ (s.port p).outbound.length →
      exec (.pendingNoticeIssue p) s = .next s.fresh ∧ exec (.heldProgramDone p) s = .next s.fresh ∧
      exec (.failedClosePlace p) s = .next s.fresh ∧ exec (.waitingBurst p) s = .next s.fresh) ∧
    ((s.port p).link = .up → (s.port p).outbound.length < 64 →
      let noNotice := ∀ i pl, s.plate i = some pl → pl.handlerPort = p → pl.noticePending = none
      let noDone := ∀ g ∈ s.programs, g.port = p → g.state ≠ .finished
      (∀ i pl n, s.plate i = some pl → pl.handlerPort = p → pl.noticePending = some n →
        (∀ j x, j < i → s.plate j = some x → x.handlerPort = p → x.noticePending = none) →
        exec (.pendingNoticeIssue p) s = .next (s.fresh.settle
          ((s.fresh.setPlate i (some { pl with noticePending := none })).place p (plateNotice i pl n))) ∧
        exec (.heldProgramDone p) s = .next s.fresh ∧ exec (.failedClosePlace p) s = .next s.fresh ∧
        exec (.waitingBurst p) s = .next s.fresh) ∧
      (noNotice → ∀ g, s.heldProgram p = some g → s.program? g.tag = some g →
        exec (.heldProgramDone p) s = .next (s.fresh.settle ((s.fresh.place p (programDone g)).dropProgram g.tag)) ∧
        exec (.failedClosePlace p) s = .next s.fresh ∧ exec (.waitingBurst p) s = .next s.fresh) ∧
      (noNotice → noDone → ∀ r record, (s.port p).read = some r → r.waitingClose = some record →
        ∃ v, exec (.failedClosePlace p) s = .next (s.fresh.settle v) ∧ (v.port p).read = none ∧
          (v.port p).outbound = (s.port p).outbound ++ [.message
            { kind := .close, code := .byte 0, tag := r.tag, status := none, body := .close record }] ∧
          OnlyPorts s.fresh v ∧ OtherPortsKept p s v ∧ exec (.waitingBurst p) s = .next s.fresh) ∧
      (noNotice → noDone → ∀ r t, (s.port p).read = some r → r.waitingClose = none → s.tile? r.tile = some t →
        burstDue r t = true → (∀ e ∈ (s.port p).outbound, e.isOpenStream = false) →
        exec (.waitingBurst p) s = .next (s.fresh.settle (s.fresh.judgeBurst p))))) ∧
  (∀ (s : State) (p : Port), (s.programs.map (·.tag)).Nodup →
    ((s.port p).link = .down ∨ 64 ≤ (s.port p).outbound.length → s.serveClaims p = s) ∧
    ((s.port p).link = .up → (s.port p).outbound.length < 64 →
      let noNotice := ∀ i pl, s.plate i = some pl → pl.handlerPort = p → pl.noticePending = none
      let noDone := ∀ g ∈ s.programs, g.port = p → g.state ≠ .finished
      let noClose := ∀ r, (s.port p).read = some r → r.waitingClose = none
      let streamStands := ∃ e ∈ (s.port p).outbound, e.isOpenStream = true
      (∀ i pl n, s.plate i = some pl → pl.handlerPort = p → pl.noticePending = some n →
        (∀ j x, j < i → s.plate j = some x → x.handlerPort = p → x.noticePending = none) →
        s.serveClaims p =
          ((s.setPlate i (some { pl with noticePending := none })).place p (plateNotice i pl n)).serveClaims p) ∧
      (noNotice → ∀ g, s.heldProgram p = some g →
        s.serveClaims p = ((s.place p (programDone g)).dropProgram g.tag).serveClaims p) ∧
      (noNotice → noDone → ∀ r record, (s.port p).read = some r → r.waitingClose = some record →
        s.serveClaims p = ((s.setPort p { s.port p with read := none }).place p (.message
          { kind := .close, code := .byte 0, tag := r.tag, status := none, body := .close record })).serveClaims p) ∧
      (noNotice → noDone → noClose → ¬ streamStands → ∀ r t, (s.port p).read = some r → s.tile? r.tile = some t →
        burstDue r t = true → s.serveClaims p = (s.judgeBurst p).serveClaims p) ∧
      (noNotice → noDone → noClose →
        (streamStands ∨ ∀ r t, (s.port p).read = some r → s.tile? r.tile = some t → burstDue r t = false) →
        s.serveClaims p = s))) ∧
  (∀ (s0 s : State) (p : Port),
    let u := s.serveClaims p
    ((u.port p).link = .up → (u.port p).sending = .idle →
      ((u.port p).retry ≠ [] →
        s0.serveFreed s p = s0.settle (u.setPort p { u.port p with sending := .retryLater })) ∧
      ((u.port p).retry = [] → (u.port p).outbound ≠ [] →
        s0.serveFreed s p = s0.settle (u.setPort p { u.port p with sending := .entry })) ∧
      ((u.port p).retry = [] → (u.port p).outbound = [] → s0.serveFreed s p = s0.settle u)) ∧
    ((u.port p).link = .down ∨ (u.port p).sending ≠ .idle → s0.serveFreed s p = s0.settle u)) ∧
  (∀ (s : State) (p : Port),
    (∀ g, s.heldProgram p = some g ↔ ∃ older younger, s.programs = older ++ g :: younger ∧
      g.port = p ∧ g.state = .finished ∧ ∀ x ∈ older, ¬ (x.port = p ∧ x.state = .finished)) ∧
    (s.heldProgram p = none ↔ ∀ x ∈ s.programs, ¬ (x.port = p ∧ x.state = .finished))) ∧
  (∀ g : Program, programDone g = .message
    { kind := .notice, code := .name (.code .programDone), tag := 0, status := none
      body := .programDone g.tag g.content.slot g.outcome g.tilesCompleted
        (g.content.tiles.length - g.tilesCompleted)
        (g.failingTile.map (fun k => (k, match g.content.tiles[k]? with
          | some d => d.height
          | none => 0)))
        g.refusedTile g.doseCharged (g.doseReleased.getD 0) g.generation })

/-! ### The requests of a port -/

/-- SET_WINDOW, READ_SETTINGS, WRITE_SETTINGS and SET_PREVIEW: each sets or reports what its rule says, with every written
value clamped to its range. QUERY_STATUS reports the state as it stands once the request is taken, field by field, and
changes nothing; that the outbound entries in use are counted before the reply takes its own is the model's choice
(log 29). The report's payload holds its fields at the offsets of 10.9; the revision is a free value (log 7), and so are
the bytes of names (log 4). -/
def Obligations.WindowSettingsPreviewStatus : Prop :=
  (∀ (s : State) (p : Port) (m : Message) (rest : List Message),
    let u := s.taken p rest
    (∀ base limit, Asks s p m rest (.setWindow base limit) →
      let b := if 31 < base then 31 else base
      let l := if 31 < limit then 31 else limit
      exec (.setWindow p) s = .next
        ((u.setPort p { s.port p with inbound := rest, windowBase := b, windowLimit := l }).reply p m .ok (.window b l))) ∧
    (Asks s p m rest .readSettings →
      exec (.readSettings p) s = .next (u.reply p m .ok (.settings s.settings))) ∧
    (∀ discard retry auto step saturation floor offset,
      Asks s p m rest (.writeSettings discard retry auto step saturation floor offset) →
      ∃ record : Settings, exec (.writeSettings p) s =
          .next (State.reply { u with settings := record } p m .ok (.settings record)) ∧
        record.discardTime = max 10 (min discard 10000) ∧ record.retryLimit = max 1 (min retry 1024) ∧
        record.autoRegistration = auto ∧ record.marginStep = max (-24) (min step 96) ∧
        record.marginSaturation = max 1024 (min saturation 16383) ∧ record.marginFloor = max 1 (min floor 4095) ∧
        record.marginOffset = min offset 4032) ∧
    (∀ on, Asks s p m rest (.setPreview on) →
      exec (.setPreview p) s = .next
        ((u.setPort p { s.port p with inbound := rest, previewFlag := on }).reply p m .ok (.flag on))) ∧
    (Asks s p m rest .queryStatus →
      let report : StatusReport :=
        { calState := match s.calContext with
            | none => .idle
            | some k => if k.phase = .dark then .darkFrame else .lightFrame
          generation := s.cal.generation
          cal := s.cal.params
          stage := s.occupant.map (fun i => (i, (s.plate i).map (fun pl => pl.state)))
          indicator := s.indicator
          unitState := s.unit.state
          mergeDepth := s.mergeQueue.length
          freePages := s.freePages.length
          entriesInUse := s.directory.length
          pendingEntries := s.entries.length
          link := (s.port p).link
          windowBase := (s.port p).windowBase
          windowLimit := (s.port p).windowLimit
          previewFlag := (s.port p).previewFlag
          upCount := (s.port p).upCount
          inboundDepth := rest.length
          outboundInUse := (s.port p).outbound.length
          read := (s.port p).read
          ownPending := (s.entries.filter (fun e => decide (e.port = p))).length
          ownFinished := (s.programs.filter (fun g => decide (g.port = p ∧ g.state = .finished))).length
          ownNotices := (s.plates.toList.filter (fun r =>
            r.any (fun pl => decide (pl.handlerPort = p ∧ pl.noticePending ≠ none)))).length
          programs := s.programs.map (fun g => (g.tag, g.state))
          running := (s.programs.find? (fun g => decide (g.state = .running))).map
            (fun g => (g.captureStep, g.nextTile)) }
      exec (.queryStatus p) s = .next (u.reply p m .ok (.status report)) ∧
      (bodyOctets (.status report)).take 9 = [.byte 0x44, .byte 0x53, .byte 0x34, .byte 0x31, .byte 0x36, .byte 0,
        .byte 0, .byte 0, .byte Config.revision])) ∧
  ∀ r : StatusReport,
    let byte := fun (v : Nat) => Octet.byte (BitVec.ofNat 8 v)
    let u8 := fun (v : Nat) => [byte v]
    let u16 := fun (v : Nat) => [byte v, byte (v / 256)]
    let u32 := fun (v : Nat) => [byte v, byte (v / 256), byte (v / 65536), byte (v / 16777216)]
    let name := fun (n : Name) => [Octet.name n]
    let flag := fun (b : Bool) => u8 (if b then 1 else 0)
    let p := bodyOctets (.status r)
    HoldsFields p (58 + 4 * r.programs.length)
      [(0, [.byte 0x44, .byte 0x53, .byte 0x34, .byte 0x31, .byte 0x36, .byte 0, .byte 0, .byte 0]),
       (8, [.byte Config.revision]), (9, name (.calUnit r.calState)), (10, flag r.cal.isSome),
       (11, u8 (r.cal.elim 0 (·.level))), (12, u32 r.generation), (16, u32 (r.cal.elim 0 (·.tRef))),
       (20, u16 (r.cal.elim 0 (·.width))), (22, flag r.stage.isSome), (23, u8 (r.stage.elim 0 (·.1))),
       (24, r.stage.elim (u8 0) (fun x => name (.plateState x.2))), (25, flag r.indicator),
       (26, name (.unit r.unitState)), (27, u8 r.mergeDepth), (28, u16 r.freePages), (30, u8 r.entriesInUse),
       (31, u8 r.pendingEntries), (32, name (.link r.link)), (33, u8 r.windowBase), (34, u8 r.windowLimit),
       (35, flag r.previewFlag), (36, u16 r.upCount.toNat), (38, u8 r.inboundDepth), (39, u8 r.outboundInUse),
       (40, flag r.read.isSome), (41, r.read.elim (u8 0) (fun d => name (.readKind d.kind))),
       (42, u16 (r.read.elim 0 (·.tile.tag)) ++ u16 (r.read.elim 0 (·.tile.index))),
       (46, u16 (r.read.elim 0 (·.position))), (48, u16 (r.read.elim 0 (·.delivered))), (50, u8 r.ownPending),
       (51, u8 r.ownFinished), (52, u8 r.ownNotices), (53, u8 r.programs.length), (54, flag r.running.isSome),
       (55, match r.running with
         | some (some st, _) => name (.captureStep st)
         | _ => u8 0),
       (56, u8 (r.running.elim 0 (·.2))), (57, u8 0)] ∧
    ∀ k x, r.programs[k]? = some x → HoldsField p (58 + 4 * k) (u16 x.1 ++ name (.programState x.2) ++ u8 0)

/-- PORT_RESET: the port leaves the keep set of the stage occupant, its read and its pending entries end, its window and
preview flag take their reset values and its FINISHED programs are dropped, their FAILED tile entries with them; its
link, UP count, queue of messages, retry list and other outbound entries stay, and so do the other ports' programs and
every other tile entry, the read's tile losing its reader (the consume field is then the model's, log 27). A WAITING entry
that this release turns READY may add its TILE_READY at the tail. The order of the effects, and the claims and waiting
work served after them (`serveFreed`), are the model's choice (log 24). -/
def Obligations.PortResetClearsThePort : Prop :=
  ∀ (s : State) (p : Port) (m : Message) (rest : List Message), Asks s p m rest .portReset →
    ∃ v, exec (.portReset p) s = .next ((s.taken p rest).serveFreed v p) ∧
      (v.port p).windowBase = 0 ∧ (v.port p).windowLimit = 31 ∧ (v.port p).previewFlag = false ∧
      (v.port p).read = none ∧ (v.port p).link = (s.port p).link ∧ (v.port p).upCount = (s.port p).upCount ∧
      (v.port p).inbound = rest ∧ (v.port p).retry = (s.port p).retry ∧
      ((s.port p).read ≠ none → ∀ e ∈ (v.port p).outbound, e.isOpenStream = false) ∧
      ((s.port p).read = none → (v.port p).outbound = (s.port p).outbound) ∧
      (∃ more, more.length ≤ 1 ∧ ((s.port p).read ≠ none →
        (v.port p).outbound = (s.port p).outbound.filter (fun e => !e.isOpenStream) ++ more)) ∧
      (∀ t ∈ v.directory, t.state = .failed → ∀ g ∈ s.programs, g.port = p → g.state = .finished → g.tag ≠ t.id.tag) ∧
      (∀ t ∈ s.directory,
        (t.state = .failed → ∀ g ∈ s.programs, g.port = p → g.state = .finished → g.tag ≠ t.id.tag) →
        t ∈ v.directory ∨ ({ t with reader := none, consume := false } ∈ v.directory ∧
          ∃ r, (s.port p).read = some r ∧ r.tile = t.id)) ∧
      (∀ r t, (s.port p).read = some r → s.tile? r.tile = some t → t.reader = some (p, r.kind) →
        ∀ x ∈ v.directory, x.id = r.tile → x.reader = none) ∧ v.freePages = s.freePages ∧
      (∀ e ∈ v.entries, e.port ≠ p) ∧
      (∀ i pl, s.occupant = some i → s.plate i = some pl → ∃ k : PortSet,
        v.plate i = some { pl with keeps := k } ∧ k.has p = false ∧ ∀ q, q ≠ p → k.has q = pl.keeps.has q) ∧
      (∀ i, s.occupant ≠ some i → v.plate i = s.plate i) ∧
      (∀ g ∈ v.programs, g ∈ s.programs ∧ ¬ (g.port = p ∧ g.state = .finished)) ∧
      (∀ g ∈ s.programs, (∀ f ∈ s.programs, f.port = p → f.state = .finished → f.tag ≠ g.tag) → g ∈ v.programs) ∧
      v.settings = s.settings ∧ v.cal = s.cal ∧ v.unit = s.unit ∧ v.pages = s.pages ∧ v.sent = []

/-! ### Arithmetic -/

/-- Exposure times are rounded to the nearest microsecond, an exact half upward, with M the multiplier of R81; costs are
rounded up; LOG of 1 to 16383 is the integer nearest to 1024 times the binary logarithm. -/
def Obligations.TimesCostsAndLogsAreRounded : Prop :=
  (∀ (tRef q j M : Nat), (j, M) ∈ [(0, 4096), (1, 4467), (2, 4871), (3, 5312), (4, 5793), (5, 6317), (6, 6889),
      (7, 7512)] →
    let up := exposureTime tRef (8 * (q : Int) + j)
    let down := exposureTime tRef (8 * (-(q : Int)) + j)
    (4096 * (2 * up) ≤ 2 * (tRef * M * 2 ^ q) + 4096 ∧ 2 * (tRef * M * 2 ^ q) + 4096 < 4096 * (2 * up + 2)) ∧
    (4096 * 2 ^ q * (2 * down) ≤ 2 * (tRef * M) + 4096 * 2 ^ q ∧
      2 * (tRef * M) + 4096 * 2 ^ q < 4096 * 2 ^ q * (2 * down + 2))) ∧
  (∀ level t : Nat, level * t ≤ 1000 * exposureCost level t ∧ 1000 * exposureCost level t < level * t + 1000) ∧
  (∀ v : Nat, 1 ≤ v → v ≤ 16383 → 2 ^ (2 * logOf v) ≤ 2 * v ^ 2048 ∧ v ^ 2048 < 2 ^ (2 * logOf v + 1))

/-- The four rounding modes, and the class and code of a sample: UNDER, marked ABOVE, the range of the codes, the density
of a sample seen by one and by two valid exposures; and for a bracket of any length: the valid exposure of the largest
step in SELECT, the two valid ones of the largest steps in BLEND, GAP from the unsaturated exposure of the largest step,
and ABOVE without marking from FLOOR at the largest step, each clamped to 0 and 65000 after base subtraction. -/
def Obligations.DensityRoundsAndClasses : Prop :=
  (∀ n d q : Int, 0 < d →
    (q = roundQuotient .nearestEven n d → 2 * (q * d) - d ≤ 2 * n ∧ 2 * n ≤ 2 * (q * d) + d ∧
      (2 * n = 2 * (q * d) - d ∨ 2 * n = 2 * (q * d) + d → q % 2 = 0)) ∧
    (q = roundQuotient .toZero n d →
      (0 ≤ n → q * d ≤ n ∧ n < (q + 1) * d) ∧ (n ≤ 0 → n ≤ q * d ∧ (q - 1) * d < n)) ∧
    (q = roundQuotient .up n d → (q - 1) * d < n ∧ n ≤ q * d) ∧
    (q = roundQuotient .down n d → q * d ≤ n ∧ n < (q + 1) * d)) ∧
  (∀ (P : DensityParams) (cal : Nat) (raws : List Nat),
    (density P cal raws).2 ≤ 65535 ∧ (P.marking = false → (density P cal raws).2 ≤ 65000) ∧
    ((∀ r ∈ raws, P.sat ≤ r) → density P cal raws = (.under, if P.marking then 65534 else 0)) ∧
    (raws ≠ [] → (∀ r ∈ raws, r < P.sat ∧ r - P.dark < P.floor) → P.marking = true →
      density P cal raws = (.above, 65535))) ∧
  (∀ (P : DensityParams) (cal r : Nat) (e : Int), P.steps = [e] → r < P.sat → P.floor ≤ r - P.dark →
    let v := roundQuotient P.rounding (((cal : Int) + 128 * e - logOf (r - P.dark)) * 12041) 4096 - (P.fog.getD 0 : Nat)
    (v < 0 → density P cal [r] = (.neg, 0)) ∧ (65000 < v → density P cal [r] = (.ceil, 65000)) ∧
    (0 ≤ v → v ≤ 65000 → density P cal [r] = (.normal, v.toNat))) ∧
  (∀ (P : DensityParams) (cal r₁ r₂ : Nat) (e₁ e₂ : Int), P.steps = [e₁, e₂] → r₁ < P.sat → r₂ < P.sat →
    P.floor ≤ r₁ - P.dark → P.floor ≤ r₂ - P.dark →
    let L₁ : Int := (cal : Int) + 128 * e₁ - logOf (r₁ - P.dark)
    let L₂ : Int := (cal : Int) + 128 * e₂ - logOf (r₂ - P.dark)
    let v := (if P.mergeMode = .select then roundQuotient P.rounding (L₂ * 12041) 4096
      else roundQuotient P.rounding ((L₁ + L₂) * 12041) 8192) - (P.fog.getD 0 : Nat)
    (v < 0 → density P cal [r₁, r₂] = (.neg, 0)) ∧ (65000 < v → density P cal [r₁, r₂] = (.ceil, 65000)) ∧
    (0 ≤ v → v ≤ 65000 → density P cal [r₁, r₂] = (.normal, v.toNat))) ∧
  (∀ (P : DensityParams) (cal : Nat) (front back : List (Int × Nat)) (e : Int) (r : Nat) (raws : List Nat),
    P.steps.length = raws.length → P.steps.zip raws = front ++ (e, r) :: back →
    let valid := fun (x : Int × Nat) => x.2 < P.sat ∧ P.floor ≤ x.2 - P.dark
    let L := fun (x : Int × Nat) => (cal : Int) + 128 * x.1 - logOf (x.2 - P.dark)
    let final := fun (c : SampleClass) (q : Int) =>
      let v := q - (P.fog.getD 0 : Nat)
      (v < 0 → density P cal raws = (if c = .normal then .neg else c, 0)) ∧
      (65000 < v → density P cal raws = (if c = .normal then .ceil else c, 65000)) ∧
      (0 ≤ v → v ≤ 65000 → density P cal raws = (c, v.toNat))
    (valid (e, r) → (∀ x ∈ back, ¬ valid x) →
      (P.mergeMode = .select ∨ (∀ x ∈ front, ¬ valid x) →
        final .normal (roundQuotient P.rounding (L (e, r) * 12041) 4096)) ∧
      (∀ before x after, P.mergeMode = .blend → front = before ++ x :: after → valid x → (∀ y ∈ after, ¬ valid y) →
        final .normal (roundQuotient P.rounding ((L (e, r) + L x) * 12041) 8192))) ∧
    ((∀ x ∈ front ++ (e, r) :: back, ¬ valid x) → r < P.sat → (∀ x ∈ back, P.sat ≤ x.2) →
      (∃ x ∈ front ++ back, P.sat ≤ x.2) →
      final .gap (roundQuotient P.rounding (((cal : Int) + 128 * e - logOf (max 1 (r - P.dark))) * 12041) 4096)) ∧
    ((∀ x ∈ front ++ (e, r) :: back, x.2 < P.sat ∧ x.2 - P.dark < P.floor) → back = [] → P.marking = false →
      final .above (roundQuotient P.rounding (((cal : Int) + 128 * e - logOf P.floor) * 12041) 4096)))
end

