-- ==== Sys2Proof/Laws/Layout.lean ====
section
/-! SUPPORT. The laws of the byte layouts: a field that is laid out is the field that is read, and a frame that the part
lays out passes the check of R197. -/

namespace Sys2Proof.Machine

/-- The `k` low bytes of a number read back (10 R214). -/
theorem ofLeBytes_leBytes (k v : Nat) : ofLeBytes (leBytes k v) = v % 256 ^ k := by
  induction k generalizing v with
  | zero => simp [leBytes, ofLeBytes, Nat.mod_one]
  | succ k ih =>
    have h : v % 256 ^ (k + 1) = v % 256 + 256 * (v / 256 % 256 ^ k) := by rw [Nat.pow_succ', Nat.mod_mul]
    rw [h, leBytes, ofLeBytes, ih, BitVec.toNat_ofNat]

/-- A number of 32 bits written at the end of a frame is the one read there (10 R214). -/
theorem u32At_append (l : List Octet) (v : Nat) (h : v < 2 ^ 32) : u32At (l ++ u32Octets v) l.length = v := by
  have e : ∀ i, octetAt (l ++ u32Octets v) (l.length + i) = (u32Octets v).getD i (.byte 0) := by
    intro i; simp [octetAt, List.getD_eq_getElem?_getD, List.getElem?_append_right]
  have := ofLeBytes_leBytes 4 v
  rw [u32At, show octetAt (l ++ u32Octets v) l.length = (u32Octets v).getD 0 (.byte 0) from e 0, e 1, e 2, e 3]
  simp only [leBytes, u32Octets, numOctets, List.map, List.getD_cons_zero, List.getD_cons_succ, octetByte] at this ⊢
  rw [this, Nat.mod_eq_of_lt (by simpa using h)]

/-- The header takes 8 bytes (10.2). -/
theorem messageOctets_length (m : OutMessage) : (messageOctets m).length = 8 + (bodyOctets m.body).length := by
  cases m with
  | mk k c t st b =>
    cases st <;> simp [messageOctets, nameOctets, u16Octets, numOctets, leBytes, statusFieldOctets, zeroOctets] <;> omega

/-- The payload length of a frame laid out is that of its payload (10.2). -/
theorem framePayloadLength_frameOf (m : OutMessage) (h : (bodyOctets m.body).length ≤ 8240) :
    framePayloadLength (frameOf m) = (bodyOctets m.body).length := by
  have := ofLeBytes_leBytes 2 (bodyOctets m.body).length
  simp only [leBytes] at this
  simp only [framePayloadLength, u16At, frameOf, messageOctets, nameOctets, u16Octets, numOctets, leBytes, List.map,
    List.cons_append, List.nil_append, octetAt, List.getD_cons_succ, List.getD_cons_zero, octetByte]
  rw [this, Nat.mod_eq_of_lt (by norm_num; omega)]

/-- Every frame that the part lays out passes the check a receiver makes (09 R197, 10.2, R214). -/
theorem frameAccepted_frameOf (m : OutMessage) (h : (bodyOctets m.body).length ≤ 8240) :
    frameAccepted (frameOf m) = true := by
  have h1 := framePayloadLength_frameOf m h
  have h2 := messageOctets_length m
  simp only [frameAccepted, frameCheck, h1, Bool.and_eq_true, decide_eq_true_eq]
  refine ⟨⟨?_, h⟩, ?_⟩
  · simp [frameOf, checkOctets, u32Octets, numOctets, leBytes, h2]
  · rw [← h2]
    have e : (frameOf m).bytes = messageOctets m ++ checkOctets (messageOctets m) := rfl
    rw [e, checkOctets, u32At_append _ _ (BitVec.isLt _)]
    simp

end Sys2Proof.Machine
end

