-- ==== Sys2Proof/Laws/Memory.lean ====
section
/-! SUPPORT. The laws of the page memory: every operation keeps the canonical form; a read after a write gives what was
written; a write leaves every other byte alone. -/

namespace Sys2Proof.Machine

/-- The canonical form, said of the whole list. -/
theorem Memory.wf_iff (m : List Host.Cell) :
    Memory.wf m = true ↔ m.Pairwise (fun c d => c.1 < d.1) ∧ ∀ c ∈ m, c.2 ≠ unlisted := by
  induction m with
  | nil => simp [Memory.wf]
  | cons c rest ih =>
    cases rest with
    | nil => simp [Memory.wf]
    | cons d rest =>
      simp only [Memory.wf, Bool.and_eq_true, decide_eq_true_eq, ih, List.pairwise_cons, List.mem_cons, forall_eq_or_imp]
      constructor
      · rintro ⟨⟨h1, h2⟩, ⟨h3, h4⟩, h5⟩
        exact ⟨⟨⟨h2, fun e he => Nat.lt_trans h2 (h3 e he)⟩, h3, h4⟩, h1, h5⟩
      · rintro ⟨⟨⟨h2, _⟩, h3, h4⟩, h1, h5⟩
        exact ⟨⟨h1, h2⟩, ⟨h3, h4⟩, h5⟩

/-- The cells of a run list addresses of the run, and no byte that an unlisted address reads as. -/
theorem Memory.mem_cells {a : Nat} {bs : List Byte} {c : Host.Cell} (h : c ∈ Memory.cells a bs) :
    a ≤ c.1 ∧ c.1 < a + bs.length ∧ c.2 ≠ unlisted := by
  induction bs generalizing a with
  | nil => simp [Memory.cells] at h
  | cons b bs ih =>
    simp only [Memory.cells] at h
    rw [List.length_cons]
    split at h
    · have := ih h
      exact ⟨by omega, by omega, this.2.2⟩
    · rcases List.mem_cons.1 h with rfl | h
      · exact ⟨Nat.le_refl _, by simp, by assumption⟩
      · have := ih h
        exact ⟨by omega, by omega, this.2.2⟩

theorem Memory.cells_sorted (a : Nat) (bs : List Byte) : (Memory.cells a bs).Pairwise (fun c d => c.1 < d.1) := by
  induction bs generalizing a with
  | nil => simp [Memory.cells]
  | cons b bs ih =>
    simp only [Memory.cells]
    split
    · exact ih _
    · refine List.pairwise_cons.2 ⟨fun c hc => ?_, ih _⟩
      have := Memory.mem_cells hc
      simp only
      omega

/-- Writing a run keeps the canonical form. -/
theorem Memory.writeRun_wf {m : List Host.Cell} (h : Memory.wf m = true) (a : Nat) (bs : List Byte) :
    Memory.wf (Memory.writeRun m a bs) = true := by
  rw [Memory.wf_iff] at h ⊢
  obtain ⟨hs, hn⟩ := h
  refine ⟨?_, fun c hc => ?_⟩
  · refine List.pairwise_append.2 ⟨List.pairwise_append.2 ⟨hs.filter _, Memory.cells_sorted a bs, ?_⟩, hs.filter _, ?_⟩
    · intro c hc d hd
      have h1 := of_decide_eq_true (List.mem_filter.1 hc).2
      have h2 := Memory.mem_cells hd
      omega
    · intro c hc d hd
      have h2 := of_decide_eq_true (List.mem_filter.1 hd).2
      rcases List.mem_append.1 hc with hc | hc
      · have h1 := of_decide_eq_true (List.mem_filter.1 hc).2
        omega
      · have h1 := Memory.mem_cells hc
        omega
  · rcases List.mem_append.1 hc with hc | hc
    · rcases List.mem_append.1 hc with hc | hc
      · exact hn c (List.mem_of_mem_filter hc)
      · exact (Memory.mem_cells hc).2.2
    · exact hn c (List.mem_of_mem_filter hc)

/-- Writing through a chain keeps the canonical form. -/
theorem Memory.writeChain_wf {m : List Host.Cell} (h : Memory.wf m = true) (chain : List Nat) (o : Nat)
    (bs : List Byte) : Memory.wf (Memory.writeChain m chain o bs) = true := by
  induction chain generalizing m o bs with
  | nil => exact h
  | cons page chain ih =>
    simp only [Memory.writeChain]
    split
    · exact ih h _ _
    · exact ih (Memory.writeRun_wf h _ _) _ _

/-- Writing a line keeps the canonical form. -/
theorem Memory.writeLine_wf {m : List Host.Cell} (h : Memory.wf m = true) (chain : List Nat) (width y : Nat)
    (vs : List (BitVec 16)) : Memory.wf (Memory.writeLine m chain width y vs) = true :=
  Memory.writeChain_wf h _ _ _

/-- The memory after reset has the canonical form. -/
theorem State.reset_pages_wf : Memory.wf State.reset.pages = true := rfl

/-! ### Reading after writing -/

theorem Memory.read_cells (a x : Nat) (bs : List Byte) :
    Memory.read (Memory.cells a bs) x = if a ≤ x then bs.getD (x - a) unlisted else unlisted := by
  induction bs generalizing a with
  | nil => simp [Memory.cells, Memory.read]
  | cons b bs ih =>
    by_cases hx : a = x
    · subst hx
      by_cases hb : b = unlisted
      · have hnone : (Memory.cells (a + 1) bs).find? (fun c => decide (c.1 = a)) = none := by
          rw [List.find?_eq_none]
          intro c hc
          have := Memory.mem_cells hc
          simp; omega
        simp [Memory.read, Memory.cells, hb, hnone]
      · simp [Memory.read, Memory.cells, hb]
    · have hstep : Memory.read (Memory.cells a (b :: bs)) x = Memory.read (Memory.cells (a + 1) bs) x := by
        by_cases hb : b = unlisted <;> simp [Memory.read, Memory.cells, hb, hx]
      rw [hstep, ih]
      by_cases hle : a ≤ x
      · have h1 : a + 1 ≤ x := by omega
        have h2 : x - a = (x - (a + 1)) + 1 := by omega
        simp [hle, h1, h2]
      · have h1 : ¬ a + 1 ≤ x := by omega
        simp [hle, h1]

theorem Memory.find?_filter (m : List Host.Cell) (x : Nat) (q : Nat → Bool) (h : q x = true) :
    (m.filter (fun c => q c.1)).find? (fun c => decide (c.1 = x)) = m.find? (fun c => decide (c.1 = x)) := by
  induction m with
  | nil => rfl
  | cons c m ih =>
    by_cases hc : c.1 = x
    · simp [hc, h]
    · by_cases hq : q c.1 <;> simp [hq, hc, ih]

theorem Memory.find?_filter_none (m : List Host.Cell) (x : Nat) (q : Nat → Bool) (h : q x = false) :
    (m.filter (fun c => q c.1)).find? (fun c => decide (c.1 = x)) = none := by
  rw [List.find?_eq_none]
  intro c hc
  have := (List.mem_filter.1 hc).2
  simp only [decide_eq_true_eq]
  rintro rfl
  simp [h] at this

/-- What a byte reads as after a run is written: the run's byte inside it, and what it read as before outside it. -/
theorem Memory.read_writeRun (m : List Host.Cell) (a x : Nat) (bs : List Byte) :
    Memory.read (Memory.writeRun m a bs) x =
      if a ≤ x ∧ x < a + bs.length then bs.getD (x - a) unlisted else Memory.read m x := by
  have lo := fun h => Memory.find?_filter m x (fun n => decide (n < a)) h
  have lo' := fun h => Memory.find?_filter_none m x (fun n => decide (n < a)) h
  have hi := fun h => Memory.find?_filter m x (fun n => decide (a + bs.length ≤ n)) h
  have hi' := fun h => Memory.find?_filter_none m x (fun n => decide (a + bs.length ≤ n)) h
  have hc := Memory.read_cells a x bs
  unfold Memory.read at hc
  have hcn : ¬ (a ≤ x ∧ x < a + bs.length) → (Memory.cells a bs).find? (fun c => decide (c.1 = x)) = none := by
    intro h
    rw [List.find?_eq_none]
    intro c hcm
    have := Memory.mem_cells hcm
    simp; omega
  unfold Memory.read Memory.writeRun
  simp only [List.find?_append]
  by_cases h : a ≤ x ∧ x < a + bs.length
  · rw [lo' (by simp; omega), hi' (by simp; omega)]
    simpa [h] using hc
  · rw [hcn h]
    by_cases hx : x < a
    · rw [lo (by simpa using hx), hi' (by simp; omega)]
      simp [h]
    · rw [lo' (by simpa using hx), hi (by simp; omega)]
      simp [h]

/-- A write through a chain leaves alone every byte that the written offsets do not name. -/
theorem Memory.read_writeChain_of_not_mem (m : List Host.Cell) (chain : List Nat) (o x : Nat) (bs : List Byte)
    (h : ∀ i, i < bs.length → Memory.chainAddress chain (o + i) ≠ some x) :
    Memory.read (Memory.writeChain m chain o bs) x = Memory.read m x := by
  induction chain generalizing m o bs with
  | nil => rfl
  | cons page chain ih =>
    simp only [Memory.writeChain]
    split
    · rename_i ho
      refine ih _ _ _ (fun i hi => ?_)
      have := h i hi
      rw [Memory.chainAddress, if_pos (by omega)] at this
      rwa [show o + i - pageSize = o - pageSize + i by omega] at this
    · rename_i ho
      rw [ih]
      · rw [Memory.read_writeRun, if_neg]
        rintro ⟨h1, h2⟩
        rw [List.length_take] at h2
        have := h (x - (page * pageSize + o)) (by omega)
        rw [Memory.chainAddress, if_neg (by omega)] at this
        exact this (by congr 1; omega)
      · intro i hi
        rw [List.length_drop] at hi
        have := h (pageSize - o + i) (by omega)
        rw [Memory.chainAddress, if_pos (by omega)] at this
        rwa [show o + (pageSize - o + i) - pageSize = 0 + i by omega] at this

/-- The page and the place in it of the byte at an offset of a chain (07 R148). -/
theorem Memory.chainAddress_eq (chain : List Nat) (o : Nat) :
    Memory.chainAddress chain o = (chain[o / pageSize]?).map (fun page => page * pageSize + o % pageSize) := by
  induction chain generalizing o with
  | nil => simp [Memory.chainAddress]
  | cons page chain ih =>
    unfold Memory.chainAddress
    split
    · rename_i h
      obtain ⟨k, rfl⟩ := Nat.exists_eq_add_of_le h
      rw [ih, Nat.add_sub_cancel_left, Nat.add_div_left _ (by decide), Nat.add_mod_left]
      simp
    · rename_i h
      rw [Nat.div_eq_of_lt (by omega), Nat.mod_eq_of_lt (by omega)]; simp

/-- A byte written to a chain of distinct pages is read back (07 R148). -/
theorem Memory.read_writeChain (m : List Host.Cell) {chain : List Nat} (hn : chain.Nodup) (o : Nat) (bs : List Byte) {i x : Nat}
    (hi : i < bs.length) (hx : Memory.chainAddress chain (o + i) = some x) :
    Memory.read (Memory.writeChain m chain o bs) x = bs.getD i unlisted := by
  induction chain generalizing m o bs i with
  | nil => cases hx
  | cons page chain ih =>
    have hn' := List.nodup_cons.1 hn
    unfold Memory.writeChain
    unfold Memory.chainAddress at hx
    split
    · rename_i h
      rw [if_pos (by omega), show o + i - pageSize = o - pageSize + i by omega] at hx
      exact ih m hn'.2 _ bs hi hx
    · rename_i h
      split at hx
      · rename_i h2
        have e : o + i - pageSize = 0 + (i - (pageSize - o)) := by omega
        rw [e] at hx
        rw [ih _ hn'.2 0 _ (by rw [List.length_drop]; omega) hx]
        simp only [List.getD_eq_getElem?_getD, List.getElem?_drop]
        rw [show pageSize - o + (i - (pageSize - o)) = i by omega]
      · rename_i h2
        cases hx
        rw [Memory.read_writeChain_of_not_mem, Memory.read_writeRun, if_pos]
        · rw [show page * pageSize + (o + i) - (page * pageSize + o) = i by omega]
          simp only [List.getD_eq_getElem?_getD, List.getElem?_take]
          rw [if_pos (by omega)]
        · rw [List.length_take]; omega
        · intro j _ hj
          rw [Nat.zero_add, Memory.chainAddress_eq, Option.map_eq_some_iff] at hj
          obtain ⟨q, hq, e⟩ := hj
          have := Nat.mod_lt j (show pageSize > 0 by decide)
          have : q = page := by
            have := congrArg (· / pageSize) e
            simp only [Nat.mul_comm _ pageSize, Nat.mul_add_div (show pageSize > 0 by decide)] at this
            rw [Nat.div_eq_of_lt (by omega), Nat.div_eq_of_lt (a := o + i) (by omega)] at this
            omega
          exact hn'.1 (this ▸ List.mem_of_getElem? hq)

theorem Memory.readRun_eq (m : List Host.Cell) (a k : Nat) :
    Memory.readRun m a k = (List.range k).map (fun i => Memory.read m (a + i)) := by
  induction k generalizing a with
  | zero => rfl
  | succ k ih =>
    rw [Memory.readRun, ih, List.range_succ_eq_map, List.map_cons, List.map_map]
    simp only [Nat.add_zero, List.cons.injEq, true_and]
    apply List.map_congr_left; intro i _; simp only [Function.comp]; congr 1; omega

/-- What is read from a chain, byte by byte (07 R148). -/
theorem Memory.readChain_eq (m : List Host.Cell) (chain : List Nat) (o k : Nat) (h : o + k ≤ pageSize * chain.length) :
    Memory.readChain m chain o k = (List.range k).map (fun i => Memory.read m ((Memory.chainAddress chain (o + i)).getD 0)) := by
  induction chain generalizing o k with
  | nil => have : k = 0 := by simp at h; omega
           subst this; rfl
  | cons page chain ih =>
    rw [List.length_cons, Nat.mul_succ] at h
    unfold Memory.readChain
    split
    · rename_i hp
      rw [ih _ _ (by omega)]
      apply List.map_congr_left
      intro i _
      rw [Memory.chainAddress, if_pos (by omega), show o + i - pageSize = o - pageSize + i by omega]
    · rename_i hp
      rw [ih _ _ (by omega), Memory.readRun_eq]
      have e : List.range k = List.range (min k (pageSize - o)) ++ (List.range (k - (pageSize - o))).map (min k (pageSize - o) + ·) := by
        rw [← List.range_add]; congr 1; omega
      rw [e, List.map_append, List.map_map]
      congr 1
      · apply List.map_congr_left
        intro i hi
        rw [List.mem_range] at hi
        rw [Memory.chainAddress, if_neg (by omega)]; simp [Nat.add_assoc]
      · apply List.map_congr_left
        intro i hi
        rw [List.mem_range] at hi
        simp only [Function.comp]
        rw [Memory.chainAddress.eq_def (page :: chain)]
        simp only
        rw [if_pos (by omega), show o + (min k (pageSize - o) + i) - pageSize = 0 + i by omega]

/-- A stretch of bytes written to a chain of distinct pages is read back whole (07 R148). -/
theorem Memory.readChain_writeChain (m : List Host.Cell) {chain : List Nat} (hn : chain.Nodup) (o : Nat) (bs : List Byte)
    (h : o + bs.length ≤ pageSize * chain.length) :
    Memory.readChain (Memory.writeChain m chain o bs) chain o bs.length = bs := by
  rw [Memory.readChain_eq _ _ _ _ h]
  apply List.ext_getElem
  · simp
  · intro i h1 h2
    simp only [List.getElem_map, List.getElem_range]
    have hlt : (o + i) / pageSize < chain.length := Nat.div_lt_of_lt_mul (by omega)
    have hx : Memory.chainAddress chain (o + i) = some (chain[(o + i) / pageSize] * pageSize + (o + i) % pageSize) := by
      rw [Memory.chainAddress_eq, List.getElem?_eq_getElem hlt]; rfl
    rw [hx]
    simp only [Option.getD_some]
    rw [Memory.read_writeChain m hn o bs h2 hx, List.getD_eq_getElem?_getD, List.getElem?_eq_getElem h2]; rfl

theorem sampleBytes_length (vs : List (BitVec 16)) : (sampleBytes vs).length = 2 * vs.length := by
  induction vs with
  | nil => rfl
  | cons v vs ih => rw [sampleBytes, List.flatMap_cons, List.length_append] at *; simp [ih]; omega

/-- Samples laid down as bytes are read back as they were (log 8). -/
theorem bytesSamples_sampleBytes (vs : List (BitVec 16)) : bytesSamples (sampleBytes vs) = vs := by
  induction vs with
  | nil => rfl
  | cons v vs ih =>
    rw [sampleBytes, List.flatMap_cons] at *
    simp only [List.cons_append, List.nil_append, bytesSamples, ih]
    congr 1
    apply BitVec.eq_of_getLsbD_eq
    intro i hi
    simp
    by_cases h : i < 8 <;> simp [h, hi]
    · rw [show 8 + (i - 8) = i by omega, BitVec.getLsbD_eq_getElem hi]
      rw [decide_eq_true (show i - 8 < 16 by omega), decide_eq_true (show i - 8 < 8 by omega)]; rfl

/-- The two bytes of a sample in a line's bytes, the low one first (log 8). -/
theorem sampleBytes_get (vs : List (BitVec 16)) (j : Nat) :
    (sampleBytes vs)[2 * j]? = (vs[j]?).map (fun v => BitVec.setWidth 8 v) ∧
    (sampleBytes vs)[2 * j + 1]? = (vs[j]?).map (fun (v : BitVec 16) => BitVec.setWidth 8 (v >>> 8)) := by
  induction vs generalizing j with
  | nil => simp [sampleBytes]
  | cons v vs ih =>
    rw [sampleBytes, List.flatMap_cons]
    cases j with
    | zero => simp
    | succ j =>
      have := ih j
      rw [sampleBytes] at this
      simp only [List.cons_append, List.nil_append, List.getElem?_cons_succ, show 2 * (j + 1) = 2 * j + 1 + 1 by omega]
      exact this

end Sys2Proof.Machine
end

