-- ==== Sys2Proof/Laws/State.lean ====
section
/-! SUPPORT. What each update of the state leaves alone and what it sets: one lemma per field per update. -/

namespace Sys2Proof.Machine

/-! `setPort` -/

@[simp] theorem State.setPort_plates (s : State) (p : Port) (q : PortState) : (s.setPort p q).plates = s.plates := by cases p <;> rfl
@[simp] theorem State.setPort_occupant (s : State) (p : Port) (q : PortState) : (s.setPort p q).occupant = s.occupant := by cases p <;> rfl
@[simp] theorem State.setPort_indicator (s : State) (p : Port) (q : PortState) : (s.setPort p q).indicator = s.indicator := by cases p <;> rfl
@[simp] theorem State.setPort_registration (s : State) (p : Port) (q : PortState) : (s.setPort p q).registration = s.registration := by cases p <;> rfl
@[simp] theorem State.setPort_programs (s : State) (p : Port) (q : PortState) : (s.setPort p q).programs = s.programs := by cases p <;> rfl
@[simp] theorem State.setPort_tagCounter (s : State) (p : Port) (q : PortState) : (s.setPort p q).tagCounter = s.tagCounter := by cases p <;> rfl
@[simp] theorem State.setPort_unit (s : State) (p : Port) (q : PortState) : (s.setPort p q).unit = s.unit := by cases p <;> rfl
@[simp] theorem State.setPort_lamp (s : State) (p : Port) (q : PortState) : (s.setPort p q).lamp = s.lamp := by cases p <;> rfl
@[simp] theorem State.setPort_cal (s : State) (p : Port) (q : PortState) : (s.setPort p q).cal = s.cal := by cases p <;> rfl
@[simp] theorem State.setPort_calContext (s : State) (p : Port) (q : PortState) : (s.setPort p q).calContext = s.calContext := by cases p <;> rfl
@[simp] theorem State.setPort_mergeQueue (s : State) (p : Port) (q : PortState) : (s.setPort p q).mergeQueue = s.mergeQueue := by cases p <;> rfl
@[simp] theorem State.setPort_mergeContext (s : State) (p : Port) (q : PortState) : (s.setPort p q).mergeContext = s.mergeContext := by cases p <;> rfl
@[simp] theorem State.setPort_freePages (s : State) (p : Port) (q : PortState) : (s.setPort p q).freePages = s.freePages := by cases p <;> rfl
@[simp] theorem State.setPort_directory (s : State) (p : Port) (q : PortState) : (s.setPort p q).directory = s.directory := by cases p <;> rfl
@[simp] theorem State.setPort_allocWaiting (s : State) (p : Port) (q : PortState) : (s.setPort p q).allocWaiting = s.allocWaiting := by cases p <;> rfl
@[simp] theorem State.setPort_pages (s : State) (p : Port) (q : PortState) : (s.setPort p q).pages = s.pages := by cases p <;> rfl
@[simp] theorem State.setPort_entries (s : State) (p : Port) (q : PortState) : (s.setPort p q).entries = s.entries := by cases p <;> rfl
@[simp] theorem State.setPort_settings (s : State) (p : Port) (q : PortState) : (s.setPort p q).settings = s.settings := by cases p <;> rfl
@[simp] theorem State.setPort_sent (s : State) (p : Port) (q : PortState) : (s.setPort p q).sent = s.sent := by cases p <;> rfl
@[simp] theorem State.setPort_pending (s : State) (p : Port) (q : PortState) : (s.setPort p q).pending = s.pending := by cases p <;> rfl

/-! `fresh` -/

@[simp] theorem State.fresh_plates (s : State) : (s.fresh).plates = s.plates := rfl
@[simp] theorem State.fresh_occupant (s : State) : (s.fresh).occupant = s.occupant := rfl
@[simp] theorem State.fresh_indicator (s : State) : (s.fresh).indicator = s.indicator := rfl
@[simp] theorem State.fresh_registration (s : State) : (s.fresh).registration = s.registration := rfl
@[simp] theorem State.fresh_programs (s : State) : (s.fresh).programs = s.programs := rfl
@[simp] theorem State.fresh_tagCounter (s : State) : (s.fresh).tagCounter = s.tagCounter := rfl
@[simp] theorem State.fresh_unit (s : State) : (s.fresh).unit = s.unit := rfl
@[simp] theorem State.fresh_lamp (s : State) : (s.fresh).lamp = s.lamp := rfl
@[simp] theorem State.fresh_cal (s : State) : (s.fresh).cal = s.cal := rfl
@[simp] theorem State.fresh_calContext (s : State) : (s.fresh).calContext = s.calContext := rfl
@[simp] theorem State.fresh_mergeQueue (s : State) : (s.fresh).mergeQueue = s.mergeQueue := rfl
@[simp] theorem State.fresh_mergeContext (s : State) : (s.fresh).mergeContext = s.mergeContext := rfl
@[simp] theorem State.fresh_freePages (s : State) : (s.fresh).freePages = s.freePages := rfl
@[simp] theorem State.fresh_directory (s : State) : (s.fresh).directory = s.directory := rfl
@[simp] theorem State.fresh_allocWaiting (s : State) : (s.fresh).allocWaiting = s.allocWaiting := rfl
@[simp] theorem State.fresh_pages (s : State) : (s.fresh).pages = s.pages := rfl
@[simp] theorem State.fresh_entries (s : State) : (s.fresh).entries = s.entries := rfl
@[simp] theorem State.fresh_ports (s : State) : (s.fresh).ports = s.ports := rfl
@[simp] theorem State.fresh_settings (s : State) : (s.fresh).settings = s.settings := rfl
@[simp] theorem State.fresh_sent (s : State) :
    (s.fresh).sent = [] := rfl
@[simp] theorem State.fresh_pending (s : State) : (s.fresh).pending = s.pending := rfl

/-! `emit` -/

@[simp] theorem State.emit_plates (s : State) (e : Emission) : (s.emit e).plates = s.plates := rfl
@[simp] theorem State.emit_occupant (s : State) (e : Emission) : (s.emit e).occupant = s.occupant := rfl
@[simp] theorem State.emit_indicator (s : State) (e : Emission) : (s.emit e).indicator = s.indicator := rfl
@[simp] theorem State.emit_registration (s : State) (e : Emission) : (s.emit e).registration = s.registration := rfl
@[simp] theorem State.emit_programs (s : State) (e : Emission) : (s.emit e).programs = s.programs := rfl
@[simp] theorem State.emit_tagCounter (s : State) (e : Emission) : (s.emit e).tagCounter = s.tagCounter := rfl
@[simp] theorem State.emit_unit (s : State) (e : Emission) : (s.emit e).unit = s.unit := rfl
@[simp] theorem State.emit_lamp (s : State) (e : Emission) : (s.emit e).lamp = s.lamp := rfl
@[simp] theorem State.emit_cal (s : State) (e : Emission) : (s.emit e).cal = s.cal := rfl
@[simp] theorem State.emit_calContext (s : State) (e : Emission) : (s.emit e).calContext = s.calContext := rfl
@[simp] theorem State.emit_mergeQueue (s : State) (e : Emission) : (s.emit e).mergeQueue = s.mergeQueue := rfl
@[simp] theorem State.emit_mergeContext (s : State) (e : Emission) : (s.emit e).mergeContext = s.mergeContext := rfl
@[simp] theorem State.emit_freePages (s : State) (e : Emission) : (s.emit e).freePages = s.freePages := rfl
@[simp] theorem State.emit_directory (s : State) (e : Emission) : (s.emit e).directory = s.directory := rfl
@[simp] theorem State.emit_allocWaiting (s : State) (e : Emission) : (s.emit e).allocWaiting = s.allocWaiting := rfl
@[simp] theorem State.emit_pages (s : State) (e : Emission) : (s.emit e).pages = s.pages := rfl
@[simp] theorem State.emit_entries (s : State) (e : Emission) : (s.emit e).entries = s.entries := rfl
@[simp] theorem State.emit_ports (s : State) (e : Emission) : (s.emit e).ports = s.ports := rfl
@[simp] theorem State.emit_settings (s : State) (e : Emission) : (s.emit e).settings = s.settings := rfl
@[simp] theorem State.emit_sent (s : State) (e : Emission) :
    (s.emit e).sent = s.sent ++ [e] := rfl
@[simp] theorem State.emit_pending (s : State) (e : Emission) : (s.emit e).pending = s.pending := rfl

/-! `setPlates` -/

@[simp] theorem State.setPlates_plates (s : State) (v : Vector (Option Plate) 32) :
    (s.setPlates v).plates = v := rfl
@[simp] theorem State.setPlates_occupant (s : State) (v : Vector (Option Plate) 32) :
    (s.setPlates v).occupant = stageSlot v := rfl
@[simp] theorem State.setPlates_indicator (s : State) (v : Vector (Option Plate) 32) :
    (s.setPlates v).indicator = indicatorLevel v := rfl
@[simp] theorem State.setPlates_registration (s : State) (v : Vector (Option Plate) 32) : (s.setPlates v).registration = s.registration := rfl
@[simp] theorem State.setPlates_programs (s : State) (v : Vector (Option Plate) 32) : (s.setPlates v).programs = s.programs := rfl
@[simp] theorem State.setPlates_tagCounter (s : State) (v : Vector (Option Plate) 32) : (s.setPlates v).tagCounter = s.tagCounter := rfl
@[simp] theorem State.setPlates_unit (s : State) (v : Vector (Option Plate) 32) : (s.setPlates v).unit = s.unit := rfl
@[simp] theorem State.setPlates_lamp (s : State) (v : Vector (Option Plate) 32) : (s.setPlates v).lamp = s.lamp := rfl
@[simp] theorem State.setPlates_cal (s : State) (v : Vector (Option Plate) 32) : (s.setPlates v).cal = s.cal := rfl
@[simp] theorem State.setPlates_calContext (s : State) (v : Vector (Option Plate) 32) : (s.setPlates v).calContext = s.calContext := rfl
@[simp] theorem State.setPlates_mergeQueue (s : State) (v : Vector (Option Plate) 32) : (s.setPlates v).mergeQueue = s.mergeQueue := rfl
@[simp] theorem State.setPlates_mergeContext (s : State) (v : Vector (Option Plate) 32) : (s.setPlates v).mergeContext = s.mergeContext := rfl
@[simp] theorem State.setPlates_freePages (s : State) (v : Vector (Option Plate) 32) : (s.setPlates v).freePages = s.freePages := rfl
@[simp] theorem State.setPlates_directory (s : State) (v : Vector (Option Plate) 32) : (s.setPlates v).directory = s.directory := rfl
@[simp] theorem State.setPlates_allocWaiting (s : State) (v : Vector (Option Plate) 32) : (s.setPlates v).allocWaiting = s.allocWaiting := rfl
@[simp] theorem State.setPlates_pages (s : State) (v : Vector (Option Plate) 32) : (s.setPlates v).pages = s.pages := rfl
@[simp] theorem State.setPlates_entries (s : State) (v : Vector (Option Plate) 32) : (s.setPlates v).entries = s.entries := rfl
@[simp] theorem State.setPlates_ports (s : State) (v : Vector (Option Plate) 32) : (s.setPlates v).ports = s.ports := rfl
@[simp] theorem State.setPlates_settings (s : State) (v : Vector (Option Plate) 32) : (s.setPlates v).settings = s.settings := rfl
@[simp] theorem State.setPlates_sent (s : State) (v : Vector (Option Plate) 32) : (s.setPlates v).sent = s.sent := rfl
@[simp] theorem State.setPlates_pending (s : State) (v : Vector (Option Plate) 32) : (s.setPlates v).pending = s.pending := rfl

/-! `setPlate` -/

@[simp] theorem State.setPlate_plates (s : State) (i : Nat) (r : Option Plate) :
    (s.setPlate i r).plates = s.plates.setIfInBounds i r := rfl
@[simp] theorem State.setPlate_occupant (s : State) (i : Nat) (r : Option Plate) :
    (s.setPlate i r).occupant = stageSlot (s.plates.setIfInBounds i r) := rfl
@[simp] theorem State.setPlate_indicator (s : State) (i : Nat) (r : Option Plate) :
    (s.setPlate i r).indicator = indicatorLevel (s.plates.setIfInBounds i r) := rfl
@[simp] theorem State.setPlate_registration (s : State) (i : Nat) (r : Option Plate) : (s.setPlate i r).registration = s.registration := rfl
@[simp] theorem State.setPlate_programs (s : State) (i : Nat) (r : Option Plate) : (s.setPlate i r).programs = s.programs := rfl
@[simp] theorem State.setPlate_tagCounter (s : State) (i : Nat) (r : Option Plate) : (s.setPlate i r).tagCounter = s.tagCounter := rfl
@[simp] theorem State.setPlate_unit (s : State) (i : Nat) (r : Option Plate) : (s.setPlate i r).unit = s.unit := rfl
@[simp] theorem State.setPlate_lamp (s : State) (i : Nat) (r : Option Plate) : (s.setPlate i r).lamp = s.lamp := rfl
@[simp] theorem State.setPlate_cal (s : State) (i : Nat) (r : Option Plate) : (s.setPlate i r).cal = s.cal := rfl
@[simp] theorem State.setPlate_calContext (s : State) (i : Nat) (r : Option Plate) : (s.setPlate i r).calContext = s.calContext := rfl
@[simp] theorem State.setPlate_mergeQueue (s : State) (i : Nat) (r : Option Plate) : (s.setPlate i r).mergeQueue = s.mergeQueue := rfl
@[simp] theorem State.setPlate_mergeContext (s : State) (i : Nat) (r : Option Plate) : (s.setPlate i r).mergeContext = s.mergeContext := rfl
@[simp] theorem State.setPlate_freePages (s : State) (i : Nat) (r : Option Plate) : (s.setPlate i r).freePages = s.freePages := rfl
@[simp] theorem State.setPlate_directory (s : State) (i : Nat) (r : Option Plate) : (s.setPlate i r).directory = s.directory := rfl
@[simp] theorem State.setPlate_allocWaiting (s : State) (i : Nat) (r : Option Plate) : (s.setPlate i r).allocWaiting = s.allocWaiting := rfl
@[simp] theorem State.setPlate_pages (s : State) (i : Nat) (r : Option Plate) : (s.setPlate i r).pages = s.pages := rfl
@[simp] theorem State.setPlate_entries (s : State) (i : Nat) (r : Option Plate) : (s.setPlate i r).entries = s.entries := rfl
@[simp] theorem State.setPlate_ports (s : State) (i : Nat) (r : Option Plate) : (s.setPlate i r).ports = s.ports := rfl
@[simp] theorem State.setPlate_settings (s : State) (i : Nat) (r : Option Plate) : (s.setPlate i r).settings = s.settings := rfl
@[simp] theorem State.setPlate_sent (s : State) (i : Nat) (r : Option Plate) : (s.setPlate i r).sent = s.sent := rfl
@[simp] theorem State.setPlate_pending (s : State) (i : Nat) (r : Option Plate) : (s.setPlate i r).pending = s.pending := rfl

/-! `modProgram` -/

@[simp] theorem State.modProgram_plates (s : State) (tag : Nat) (f : Program → Program) : (s.modProgram tag f).plates = s.plates := rfl
@[simp] theorem State.modProgram_occupant (s : State) (tag : Nat) (f : Program → Program) : (s.modProgram tag f).occupant = s.occupant := rfl
@[simp] theorem State.modProgram_indicator (s : State) (tag : Nat) (f : Program → Program) : (s.modProgram tag f).indicator = s.indicator := rfl
@[simp] theorem State.modProgram_registration (s : State) (tag : Nat) (f : Program → Program) : (s.modProgram tag f).registration = s.registration := rfl
@[simp] theorem State.modProgram_programs (s : State) (tag : Nat) (f : Program → Program) :
    (s.modProgram tag f).programs = s.programs.map (fun g => if g.tag = tag then f g else g) := rfl
@[simp] theorem State.modProgram_tagCounter (s : State) (tag : Nat) (f : Program → Program) : (s.modProgram tag f).tagCounter = s.tagCounter := rfl
@[simp] theorem State.modProgram_unit (s : State) (tag : Nat) (f : Program → Program) : (s.modProgram tag f).unit = s.unit := rfl
@[simp] theorem State.modProgram_lamp (s : State) (tag : Nat) (f : Program → Program) : (s.modProgram tag f).lamp = s.lamp := rfl
@[simp] theorem State.modProgram_cal (s : State) (tag : Nat) (f : Program → Program) : (s.modProgram tag f).cal = s.cal := rfl
@[simp] theorem State.modProgram_calContext (s : State) (tag : Nat) (f : Program → Program) : (s.modProgram tag f).calContext = s.calContext := rfl
@[simp] theorem State.modProgram_mergeQueue (s : State) (tag : Nat) (f : Program → Program) : (s.modProgram tag f).mergeQueue = s.mergeQueue := rfl
@[simp] theorem State.modProgram_mergeContext (s : State) (tag : Nat) (f : Program → Program) : (s.modProgram tag f).mergeContext = s.mergeContext := rfl
@[simp] theorem State.modProgram_freePages (s : State) (tag : Nat) (f : Program → Program) : (s.modProgram tag f).freePages = s.freePages := rfl
@[simp] theorem State.modProgram_directory (s : State) (tag : Nat) (f : Program → Program) : (s.modProgram tag f).directory = s.directory := rfl
@[simp] theorem State.modProgram_allocWaiting (s : State) (tag : Nat) (f : Program → Program) : (s.modProgram tag f).allocWaiting = s.allocWaiting := rfl
@[simp] theorem State.modProgram_pages (s : State) (tag : Nat) (f : Program → Program) : (s.modProgram tag f).pages = s.pages := rfl
@[simp] theorem State.modProgram_entries (s : State) (tag : Nat) (f : Program → Program) : (s.modProgram tag f).entries = s.entries := rfl
@[simp] theorem State.modProgram_ports (s : State) (tag : Nat) (f : Program → Program) : (s.modProgram tag f).ports = s.ports := rfl
@[simp] theorem State.modProgram_settings (s : State) (tag : Nat) (f : Program → Program) : (s.modProgram tag f).settings = s.settings := rfl
@[simp] theorem State.modProgram_sent (s : State) (tag : Nat) (f : Program → Program) : (s.modProgram tag f).sent = s.sent := rfl
@[simp] theorem State.modProgram_pending (s : State) (tag : Nat) (f : Program → Program) : (s.modProgram tag f).pending = s.pending := rfl

/-! `modTile` -/

@[simp] theorem State.modTile_plates (s : State) (id : TileId) (f : TileEntry → TileEntry) : (s.modTile id f).plates = s.plates := rfl
@[simp] theorem State.modTile_occupant (s : State) (id : TileId) (f : TileEntry → TileEntry) : (s.modTile id f).occupant = s.occupant := rfl
@[simp] theorem State.modTile_indicator (s : State) (id : TileId) (f : TileEntry → TileEntry) : (s.modTile id f).indicator = s.indicator := rfl
@[simp] theorem State.modTile_registration (s : State) (id : TileId) (f : TileEntry → TileEntry) : (s.modTile id f).registration = s.registration := rfl
@[simp] theorem State.modTile_programs (s : State) (id : TileId) (f : TileEntry → TileEntry) : (s.modTile id f).programs = s.programs := rfl
@[simp] theorem State.modTile_tagCounter (s : State) (id : TileId) (f : TileEntry → TileEntry) : (s.modTile id f).tagCounter = s.tagCounter := rfl
@[simp] theorem State.modTile_unit (s : State) (id : TileId) (f : TileEntry → TileEntry) : (s.modTile id f).unit = s.unit := rfl
@[simp] theorem State.modTile_lamp (s : State) (id : TileId) (f : TileEntry → TileEntry) : (s.modTile id f).lamp = s.lamp := rfl
@[simp] theorem State.modTile_cal (s : State) (id : TileId) (f : TileEntry → TileEntry) : (s.modTile id f).cal = s.cal := rfl
@[simp] theorem State.modTile_calContext (s : State) (id : TileId) (f : TileEntry → TileEntry) : (s.modTile id f).calContext = s.calContext := rfl
@[simp] theorem State.modTile_mergeQueue (s : State) (id : TileId) (f : TileEntry → TileEntry) : (s.modTile id f).mergeQueue = s.mergeQueue := rfl
@[simp] theorem State.modTile_mergeContext (s : State) (id : TileId) (f : TileEntry → TileEntry) : (s.modTile id f).mergeContext = s.mergeContext := rfl
@[simp] theorem State.modTile_freePages (s : State) (id : TileId) (f : TileEntry → TileEntry) : (s.modTile id f).freePages = s.freePages := rfl
@[simp] theorem State.modTile_directory (s : State) (id : TileId) (f : TileEntry → TileEntry) :
    (s.modTile id f).directory = s.directory.map (fun t => if t.id = id then f t else t) := rfl
@[simp] theorem State.modTile_allocWaiting (s : State) (id : TileId) (f : TileEntry → TileEntry) : (s.modTile id f).allocWaiting = s.allocWaiting := rfl
@[simp] theorem State.modTile_pages (s : State) (id : TileId) (f : TileEntry → TileEntry) : (s.modTile id f).pages = s.pages := rfl
@[simp] theorem State.modTile_entries (s : State) (id : TileId) (f : TileEntry → TileEntry) : (s.modTile id f).entries = s.entries := rfl
@[simp] theorem State.modTile_ports (s : State) (id : TileId) (f : TileEntry → TileEntry) : (s.modTile id f).ports = s.ports := rfl
@[simp] theorem State.modTile_settings (s : State) (id : TileId) (f : TileEntry → TileEntry) : (s.modTile id f).settings = s.settings := rfl
@[simp] theorem State.modTile_sent (s : State) (id : TileId) (f : TileEntry → TileEntry) : (s.modTile id f).sent = s.sent := rfl
@[simp] theorem State.modTile_pending (s : State) (id : TileId) (f : TileEntry → TileEntry) : (s.modTile id f).pending = s.pending := rfl

/-! `removeTile` -/

@[simp] theorem State.removeTile_plates (s : State) (id : TileId) : (s.removeTile id).plates = s.plates := rfl
@[simp] theorem State.removeTile_occupant (s : State) (id : TileId) : (s.removeTile id).occupant = s.occupant := rfl
@[simp] theorem State.removeTile_indicator (s : State) (id : TileId) : (s.removeTile id).indicator = s.indicator := rfl
@[simp] theorem State.removeTile_registration (s : State) (id : TileId) : (s.removeTile id).registration = s.registration := rfl
@[simp] theorem State.removeTile_programs (s : State) (id : TileId) : (s.removeTile id).programs = s.programs := rfl
@[simp] theorem State.removeTile_tagCounter (s : State) (id : TileId) : (s.removeTile id).tagCounter = s.tagCounter := rfl
@[simp] theorem State.removeTile_unit (s : State) (id : TileId) : (s.removeTile id).unit = s.unit := rfl
@[simp] theorem State.removeTile_lamp (s : State) (id : TileId) : (s.removeTile id).lamp = s.lamp := rfl
@[simp] theorem State.removeTile_cal (s : State) (id : TileId) : (s.removeTile id).cal = s.cal := rfl
@[simp] theorem State.removeTile_calContext (s : State) (id : TileId) : (s.removeTile id).calContext = s.calContext := rfl
@[simp] theorem State.removeTile_mergeQueue (s : State) (id : TileId) : (s.removeTile id).mergeQueue = s.mergeQueue := rfl
@[simp] theorem State.removeTile_mergeContext (s : State) (id : TileId) : (s.removeTile id).mergeContext = s.mergeContext := rfl
@[simp] theorem State.removeTile_freePages (s : State) (id : TileId) : (s.removeTile id).freePages = s.freePages := rfl
@[simp] theorem State.removeTile_directory (s : State) (id : TileId) :
    (s.removeTile id).directory = s.directory.filter (fun t => decide (t.id ≠ id)) := rfl
@[simp] theorem State.removeTile_allocWaiting (s : State) (id : TileId) : (s.removeTile id).allocWaiting = s.allocWaiting := rfl
@[simp] theorem State.removeTile_pages (s : State) (id : TileId) : (s.removeTile id).pages = s.pages := rfl
@[simp] theorem State.removeTile_entries (s : State) (id : TileId) : (s.removeTile id).entries = s.entries := rfl
@[simp] theorem State.removeTile_ports (s : State) (id : TileId) : (s.removeTile id).ports = s.ports := rfl
@[simp] theorem State.removeTile_settings (s : State) (id : TileId) : (s.removeTile id).settings = s.settings := rfl
@[simp] theorem State.removeTile_sent (s : State) (id : TileId) : (s.removeTile id).sent = s.sent := rfl
@[simp] theorem State.removeTile_pending (s : State) (id : TileId) : (s.removeTile id).pending = s.pending := rfl

/-! `removeEntry` -/

@[simp] theorem State.removeEntry_plates (s : State) (p : Port) (id : TileId) : (s.removeEntry p id).plates = s.plates := rfl
@[simp] theorem State.removeEntry_occupant (s : State) (p : Port) (id : TileId) : (s.removeEntry p id).occupant = s.occupant := rfl
@[simp] theorem State.removeEntry_indicator (s : State) (p : Port) (id : TileId) : (s.removeEntry p id).indicator = s.indicator := rfl
@[simp] theorem State.removeEntry_registration (s : State) (p : Port) (id : TileId) : (s.removeEntry p id).registration = s.registration := rfl
@[simp] theorem State.removeEntry_programs (s : State) (p : Port) (id : TileId) : (s.removeEntry p id).programs = s.programs := rfl
@[simp] theorem State.removeEntry_tagCounter (s : State) (p : Port) (id : TileId) : (s.removeEntry p id).tagCounter = s.tagCounter := rfl
@[simp] theorem State.removeEntry_unit (s : State) (p : Port) (id : TileId) : (s.removeEntry p id).unit = s.unit := rfl
@[simp] theorem State.removeEntry_lamp (s : State) (p : Port) (id : TileId) : (s.removeEntry p id).lamp = s.lamp := rfl
@[simp] theorem State.removeEntry_cal (s : State) (p : Port) (id : TileId) : (s.removeEntry p id).cal = s.cal := rfl
@[simp] theorem State.removeEntry_calContext (s : State) (p : Port) (id : TileId) : (s.removeEntry p id).calContext = s.calContext := rfl
@[simp] theorem State.removeEntry_mergeQueue (s : State) (p : Port) (id : TileId) : (s.removeEntry p id).mergeQueue = s.mergeQueue := rfl
@[simp] theorem State.removeEntry_mergeContext (s : State) (p : Port) (id : TileId) : (s.removeEntry p id).mergeContext = s.mergeContext := rfl
@[simp] theorem State.removeEntry_freePages (s : State) (p : Port) (id : TileId) : (s.removeEntry p id).freePages = s.freePages := rfl
@[simp] theorem State.removeEntry_directory (s : State) (p : Port) (id : TileId) : (s.removeEntry p id).directory = s.directory := rfl
@[simp] theorem State.removeEntry_allocWaiting (s : State) (p : Port) (id : TileId) : (s.removeEntry p id).allocWaiting = s.allocWaiting := rfl
@[simp] theorem State.removeEntry_pages (s : State) (p : Port) (id : TileId) : (s.removeEntry p id).pages = s.pages := rfl
@[simp] theorem State.removeEntry_entries (s : State) (p : Port) (id : TileId) :
    (s.removeEntry p id).entries = s.entries.filter (fun e => !(decide (e.port = p) && decide (e.tile = id))) := rfl
@[simp] theorem State.removeEntry_ports (s : State) (p : Port) (id : TileId) : (s.removeEntry p id).ports = s.ports := rfl
@[simp] theorem State.removeEntry_settings (s : State) (p : Port) (id : TileId) : (s.removeEntry p id).settings = s.settings := rfl
@[simp] theorem State.removeEntry_sent (s : State) (p : Port) (id : TileId) : (s.removeEntry p id).sent = s.sent := rfl
@[simp] theorem State.removeEntry_pending (s : State) (p : Port) (id : TileId) : (s.removeEntry p id).pending = s.pending := rfl

/-! `dropEntries` -/

@[simp] theorem State.dropEntries_plates (s : State) (p : Port) : (s.dropEntries p).plates = s.plates := rfl
@[simp] theorem State.dropEntries_occupant (s : State) (p : Port) : (s.dropEntries p).occupant = s.occupant := rfl
@[simp] theorem State.dropEntries_indicator (s : State) (p : Port) : (s.dropEntries p).indicator = s.indicator := rfl
@[simp] theorem State.dropEntries_registration (s : State) (p : Port) : (s.dropEntries p).registration = s.registration := rfl
@[simp] theorem State.dropEntries_programs (s : State) (p : Port) : (s.dropEntries p).programs = s.programs := rfl
@[simp] theorem State.dropEntries_tagCounter (s : State) (p : Port) : (s.dropEntries p).tagCounter = s.tagCounter := rfl
@[simp] theorem State.dropEntries_unit (s : State) (p : Port) : (s.dropEntries p).unit = s.unit := rfl
@[simp] theorem State.dropEntries_lamp (s : State) (p : Port) : (s.dropEntries p).lamp = s.lamp := rfl
@[simp] theorem State.dropEntries_cal (s : State) (p : Port) : (s.dropEntries p).cal = s.cal := rfl
@[simp] theorem State.dropEntries_calContext (s : State) (p : Port) : (s.dropEntries p).calContext = s.calContext := rfl
@[simp] theorem State.dropEntries_mergeQueue (s : State) (p : Port) : (s.dropEntries p).mergeQueue = s.mergeQueue := rfl
@[simp] theorem State.dropEntries_mergeContext (s : State) (p : Port) : (s.dropEntries p).mergeContext = s.mergeContext := rfl
@[simp] theorem State.dropEntries_freePages (s : State) (p : Port) : (s.dropEntries p).freePages = s.freePages := rfl
@[simp] theorem State.dropEntries_directory (s : State) (p : Port) : (s.dropEntries p).directory = s.directory := rfl
@[simp] theorem State.dropEntries_allocWaiting (s : State) (p : Port) : (s.dropEntries p).allocWaiting = s.allocWaiting := rfl
@[simp] theorem State.dropEntries_pages (s : State) (p : Port) : (s.dropEntries p).pages = s.pages := rfl
@[simp] theorem State.dropEntries_entries (s : State) (p : Port) :
    (s.dropEntries p).entries = s.entries.filter (fun e => decide (e.port ≠ p)) := rfl
@[simp] theorem State.dropEntries_ports (s : State) (p : Port) : (s.dropEntries p).ports = s.ports := rfl
@[simp] theorem State.dropEntries_settings (s : State) (p : Port) : (s.dropEntries p).settings = s.settings := rfl
@[simp] theorem State.dropEntries_sent (s : State) (p : Port) : (s.dropEntries p).sent = s.sent := rfl
@[simp] theorem State.dropEntries_pending (s : State) (p : Port) : (s.dropEntries p).pending = s.pending := rfl

/-! `returnPages` -/

@[simp] theorem State.returnPages_plates (s : State) (c : List Nat) : (s.returnPages c).plates = s.plates := rfl
@[simp] theorem State.returnPages_occupant (s : State) (c : List Nat) : (s.returnPages c).occupant = s.occupant := rfl
@[simp] theorem State.returnPages_indicator (s : State) (c : List Nat) : (s.returnPages c).indicator = s.indicator := rfl
@[simp] theorem State.returnPages_registration (s : State) (c : List Nat) : (s.returnPages c).registration = s.registration := rfl
@[simp] theorem State.returnPages_programs (s : State) (c : List Nat) : (s.returnPages c).programs = s.programs := rfl
@[simp] theorem State.returnPages_tagCounter (s : State) (c : List Nat) : (s.returnPages c).tagCounter = s.tagCounter := rfl
@[simp] theorem State.returnPages_unit (s : State) (c : List Nat) : (s.returnPages c).unit = s.unit := rfl
@[simp] theorem State.returnPages_lamp (s : State) (c : List Nat) : (s.returnPages c).lamp = s.lamp := rfl
@[simp] theorem State.returnPages_cal (s : State) (c : List Nat) : (s.returnPages c).cal = s.cal := rfl
@[simp] theorem State.returnPages_calContext (s : State) (c : List Nat) : (s.returnPages c).calContext = s.calContext := rfl
@[simp] theorem State.returnPages_mergeQueue (s : State) (c : List Nat) : (s.returnPages c).mergeQueue = s.mergeQueue := rfl
@[simp] theorem State.returnPages_mergeContext (s : State) (c : List Nat) : (s.returnPages c).mergeContext = s.mergeContext := rfl
@[simp] theorem State.returnPages_freePages (s : State) (c : List Nat) :
    (s.returnPages c).freePages = s.freePages ++ c := rfl
@[simp] theorem State.returnPages_directory (s : State) (c : List Nat) : (s.returnPages c).directory = s.directory := rfl
@[simp] theorem State.returnPages_allocWaiting (s : State) (c : List Nat) : (s.returnPages c).allocWaiting = s.allocWaiting := rfl
@[simp] theorem State.returnPages_pages (s : State) (c : List Nat) : (s.returnPages c).pages = s.pages := rfl
@[simp] theorem State.returnPages_entries (s : State) (c : List Nat) : (s.returnPages c).entries = s.entries := rfl
@[simp] theorem State.returnPages_ports (s : State) (c : List Nat) : (s.returnPages c).ports = s.ports := rfl
@[simp] theorem State.returnPages_settings (s : State) (c : List Nat) : (s.returnPages c).settings = s.settings := rfl
@[simp] theorem State.returnPages_sent (s : State) (c : List Nat) : (s.returnPages c).sent = s.sent := rfl
@[simp] theorem State.returnPages_pending (s : State) (c : List Nat) : (s.returnPages c).pending = s.pending := rfl

/-! `modContext` -/

@[simp] theorem State.modContext_plates (s : State) (f : ExposureContext → ExposureContext) : (s.modContext f).plates = s.plates := rfl
@[simp] theorem State.modContext_occupant (s : State) (f : ExposureContext → ExposureContext) : (s.modContext f).occupant = s.occupant := rfl
@[simp] theorem State.modContext_indicator (s : State) (f : ExposureContext → ExposureContext) : (s.modContext f).indicator = s.indicator := rfl
@[simp] theorem State.modContext_registration (s : State) (f : ExposureContext → ExposureContext) : (s.modContext f).registration = s.registration := rfl
@[simp] theorem State.modContext_programs (s : State) (f : ExposureContext → ExposureContext) : (s.modContext f).programs = s.programs := rfl
@[simp] theorem State.modContext_tagCounter (s : State) (f : ExposureContext → ExposureContext) : (s.modContext f).tagCounter = s.tagCounter := rfl
@[simp] theorem State.modContext_unit (s : State) (f : ExposureContext → ExposureContext) :
    (s.modContext f).unit = { s.unit with context := s.unit.context.map f } := rfl
@[simp] theorem State.modContext_lamp (s : State) (f : ExposureContext → ExposureContext) : (s.modContext f).lamp = s.lamp := rfl
@[simp] theorem State.modContext_cal (s : State) (f : ExposureContext → ExposureContext) : (s.modContext f).cal = s.cal := rfl
@[simp] theorem State.modContext_calContext (s : State) (f : ExposureContext → ExposureContext) : (s.modContext f).calContext = s.calContext := rfl
@[simp] theorem State.modContext_mergeQueue (s : State) (f : ExposureContext → ExposureContext) : (s.modContext f).mergeQueue = s.mergeQueue := rfl
@[simp] theorem State.modContext_mergeContext (s : State) (f : ExposureContext → ExposureContext) : (s.modContext f).mergeContext = s.mergeContext := rfl
@[simp] theorem State.modContext_freePages (s : State) (f : ExposureContext → ExposureContext) : (s.modContext f).freePages = s.freePages := rfl
@[simp] theorem State.modContext_directory (s : State) (f : ExposureContext → ExposureContext) : (s.modContext f).directory = s.directory := rfl
@[simp] theorem State.modContext_allocWaiting (s : State) (f : ExposureContext → ExposureContext) : (s.modContext f).allocWaiting = s.allocWaiting := rfl
@[simp] theorem State.modContext_pages (s : State) (f : ExposureContext → ExposureContext) : (s.modContext f).pages = s.pages := rfl
@[simp] theorem State.modContext_entries (s : State) (f : ExposureContext → ExposureContext) : (s.modContext f).entries = s.entries := rfl
@[simp] theorem State.modContext_ports (s : State) (f : ExposureContext → ExposureContext) : (s.modContext f).ports = s.ports := rfl
@[simp] theorem State.modContext_settings (s : State) (f : ExposureContext → ExposureContext) : (s.modContext f).settings = s.settings := rfl
@[simp] theorem State.modContext_sent (s : State) (f : ExposureContext → ExposureContext) : (s.modContext f).sent = s.sent := rfl
@[simp] theorem State.modContext_pending (s : State) (f : ExposureContext → ExposureContext) : (s.modContext f).pending = s.pending := rfl

/-! `unitIdle` -/

@[simp] theorem State.unitIdle_plates (s : State) : (s.unitIdle).plates = s.plates := rfl
@[simp] theorem State.unitIdle_occupant (s : State) : (s.unitIdle).occupant = s.occupant := rfl
@[simp] theorem State.unitIdle_indicator (s : State) : (s.unitIdle).indicator = s.indicator := rfl
@[simp] theorem State.unitIdle_registration (s : State) : (s.unitIdle).registration = s.registration := rfl
@[simp] theorem State.unitIdle_programs (s : State) : (s.unitIdle).programs = s.programs := rfl
@[simp] theorem State.unitIdle_tagCounter (s : State) : (s.unitIdle).tagCounter = s.tagCounter := rfl
@[simp] theorem State.unitIdle_unit (s : State) :
    (s.unitIdle).unit = { s.unit with state := .idle, context := none, timer := .stopped } := rfl
@[simp] theorem State.unitIdle_lamp (s : State) :
    (s.unitIdle).lamp = { s.lamp with gateOpen := false } := rfl
@[simp] theorem State.unitIdle_cal (s : State) : (s.unitIdle).cal = s.cal := rfl
@[simp] theorem State.unitIdle_calContext (s : State) : (s.unitIdle).calContext = s.calContext := rfl
@[simp] theorem State.unitIdle_mergeQueue (s : State) : (s.unitIdle).mergeQueue = s.mergeQueue := rfl
@[simp] theorem State.unitIdle_mergeContext (s : State) : (s.unitIdle).mergeContext = s.mergeContext := rfl
@[simp] theorem State.unitIdle_freePages (s : State) : (s.unitIdle).freePages = s.freePages := rfl
@[simp] theorem State.unitIdle_directory (s : State) : (s.unitIdle).directory = s.directory := rfl
@[simp] theorem State.unitIdle_allocWaiting (s : State) : (s.unitIdle).allocWaiting = s.allocWaiting := rfl
@[simp] theorem State.unitIdle_pages (s : State) : (s.unitIdle).pages = s.pages := rfl
@[simp] theorem State.unitIdle_entries (s : State) : (s.unitIdle).entries = s.entries := rfl
@[simp] theorem State.unitIdle_ports (s : State) : (s.unitIdle).ports = s.ports := rfl
@[simp] theorem State.unitIdle_settings (s : State) : (s.unitIdle).settings = s.settings := rfl
@[simp] theorem State.unitIdle_sent (s : State) : (s.unitIdle).sent = s.sent := rfl
@[simp] theorem State.unitIdle_pending (s : State) : (s.unitIdle).pending = s.pending := rfl

/-! `stopTake` -/

@[simp] theorem State.stopTake_plates (s : State) : (s.stopTake).plates = s.plates := rfl
@[simp] theorem State.stopTake_occupant (s : State) : (s.stopTake).occupant = s.occupant := rfl
@[simp] theorem State.stopTake_indicator (s : State) : (s.stopTake).indicator = s.indicator := rfl
@[simp] theorem State.stopTake_registration (s : State) : (s.stopTake).registration = s.registration := rfl
@[simp] theorem State.stopTake_programs (s : State) : (s.stopTake).programs = s.programs := rfl
@[simp] theorem State.stopTake_tagCounter (s : State) : (s.stopTake).tagCounter = s.tagCounter := rfl
@[simp] theorem State.stopTake_unit (s : State) : (s.stopTake).unit = s.unit := rfl
@[simp] theorem State.stopTake_lamp (s : State) :
    (s.stopTake).lamp = { s.lamp with gateOpen := false } := rfl
@[simp] theorem State.stopTake_cal (s : State) : (s.stopTake).cal = s.cal := rfl
@[simp] theorem State.stopTake_calContext (s : State) : (s.stopTake).calContext = s.calContext := rfl
@[simp] theorem State.stopTake_mergeQueue (s : State) : (s.stopTake).mergeQueue = s.mergeQueue := rfl
@[simp] theorem State.stopTake_mergeContext (s : State) : (s.stopTake).mergeContext = s.mergeContext := rfl
@[simp] theorem State.stopTake_freePages (s : State) : (s.stopTake).freePages = s.freePages := rfl
@[simp] theorem State.stopTake_directory (s : State) : (s.stopTake).directory = s.directory := rfl
@[simp] theorem State.stopTake_allocWaiting (s : State) : (s.stopTake).allocWaiting = s.allocWaiting := rfl
@[simp] theorem State.stopTake_pages (s : State) : (s.stopTake).pages = s.pages := rfl
@[simp] theorem State.stopTake_entries (s : State) : (s.stopTake).entries = s.entries := rfl
@[simp] theorem State.stopTake_ports (s : State) : (s.stopTake).ports = s.ports := rfl
@[simp] theorem State.stopTake_settings (s : State) : (s.stopTake).settings = s.settings := rfl
@[simp] theorem State.stopTake_sent (s : State) :
    (s.stopTake).sent = s.sent ++ [.stop s.unit.takeNumber] := rfl
@[simp] theorem State.stopTake_pending (s : State) : (s.stopTake).pending = s.pending := rfl

/-! `withTimer` -/

@[simp] theorem State.withTimer_plates (s : State) (t : UnitTimer) : (s.withTimer t).plates = s.plates := rfl
@[simp] theorem State.withTimer_occupant (s : State) (t : UnitTimer) : (s.withTimer t).occupant = s.occupant := rfl
@[simp] theorem State.withTimer_indicator (s : State) (t : UnitTimer) : (s.withTimer t).indicator = s.indicator := rfl
@[simp] theorem State.withTimer_registration (s : State) (t : UnitTimer) : (s.withTimer t).registration = s.registration := rfl
@[simp] theorem State.withTimer_programs (s : State) (t : UnitTimer) : (s.withTimer t).programs = s.programs := rfl
@[simp] theorem State.withTimer_tagCounter (s : State) (t : UnitTimer) : (s.withTimer t).tagCounter = s.tagCounter := rfl
@[simp] theorem State.withTimer_unit (s : State) (t : UnitTimer) :
    (s.withTimer t).unit = { s.unit with timer := t } := rfl
@[simp] theorem State.withTimer_lamp (s : State) (t : UnitTimer) : (s.withTimer t).lamp = s.lamp := rfl
@[simp] theorem State.withTimer_cal (s : State) (t : UnitTimer) : (s.withTimer t).cal = s.cal := rfl
@[simp] theorem State.withTimer_calContext (s : State) (t : UnitTimer) : (s.withTimer t).calContext = s.calContext := rfl
@[simp] theorem State.withTimer_mergeQueue (s : State) (t : UnitTimer) : (s.withTimer t).mergeQueue = s.mergeQueue := rfl
@[simp] theorem State.withTimer_mergeContext (s : State) (t : UnitTimer) : (s.withTimer t).mergeContext = s.mergeContext := rfl
@[simp] theorem State.withTimer_freePages (s : State) (t : UnitTimer) : (s.withTimer t).freePages = s.freePages := rfl
@[simp] theorem State.withTimer_directory (s : State) (t : UnitTimer) : (s.withTimer t).directory = s.directory := rfl
@[simp] theorem State.withTimer_allocWaiting (s : State) (t : UnitTimer) : (s.withTimer t).allocWaiting = s.allocWaiting := rfl
@[simp] theorem State.withTimer_pages (s : State) (t : UnitTimer) : (s.withTimer t).pages = s.pages := rfl
@[simp] theorem State.withTimer_entries (s : State) (t : UnitTimer) : (s.withTimer t).entries = s.entries := rfl
@[simp] theorem State.withTimer_ports (s : State) (t : UnitTimer) : (s.withTimer t).ports = s.ports := rfl
@[simp] theorem State.withTimer_settings (s : State) (t : UnitTimer) : (s.withTimer t).settings = s.settings := rfl
@[simp] theorem State.withTimer_sent (s : State) (t : UnitTimer) : (s.withTimer t).sent = s.sent := rfl
@[simp] theorem State.withTimer_pending (s : State) (t : UnitTimer) : (s.withTimer t).pending = s.pending := rfl

/-! ### Ports -/

@[simp] theorem State.port_setPort_self (s : State) (p : Port) (q : PortState) : (s.setPort p q).port p = q := by
  cases p <;> rfl

theorem State.port_setPort_of_ne (s : State) {p r : Port} (q : PortState) (h : r ≠ p) :
    (s.setPort p q).port r = s.port r := by
  cases p <;> cases r <;> first | rfl | exact absurd rfl h

theorem State.port_setPort (s : State) (p r : Port) (q : PortState) :
    (s.setPort p q).port r = if r = p then q else s.port r := by
  cases p <;> cases r <;> rfl

/-- A port of a state depends on the ports alone. -/
theorem State.port_congr {s t : State} (h : t.ports = s.ports) (p : Port) : t.port p = s.port p := by
  cases p <;> simp [State.port, h]

@[simp] theorem State.setPort_setPort (s : State) (p : Port) (q r : PortState) :
    (s.setPort p q).setPort p r = s.setPort p r := by
  cases p <;> rfl

@[simp] theorem State.setPort_emit (s : State) (p : Port) (q : PortState) (e : Emission) :
    (s.emit e).setPort p q = (s.setPort p q).emit e := by
  cases p <;> rfl

theorem State.fresh_setPort (s : State) (p : Port) (q : PortState) :
    (s.setPort p q).fresh = s.fresh.setPort p q := by
  cases p <;> rfl

@[simp] theorem State.setPort_port (s : State) (p : Port) : s.setPort p (s.port p) = s := by
  cases p <;> rfl

@[simp] theorem State.fresh_port (s : State) (x : Port) : (s.fresh).port x = s.port x := by cases x <;> rfl
@[simp] theorem State.emit_port (s : State) (e : Emission) (x : Port) : (s.emit e).port x = s.port x := by cases x <;> rfl
@[simp] theorem State.setPlates_port (s : State) (v : Vector (Option Plate) 32) (x : Port) : (s.setPlates v).port x = s.port x := by cases x <;> rfl
@[simp] theorem State.setPlate_port (s : State) (i : Nat) (r : Option Plate) (x : Port) : (s.setPlate i r).port x = s.port x := by cases x <;> rfl
@[simp] theorem State.modProgram_port (s : State) (tag : Nat) (f : Program → Program) (x : Port) : (s.modProgram tag f).port x = s.port x := by cases x <;> rfl
@[simp] theorem State.modTile_port (s : State) (id : TileId) (f : TileEntry → TileEntry) (x : Port) : (s.modTile id f).port x = s.port x := by cases x <;> rfl
@[simp] theorem State.removeTile_port (s : State) (id : TileId) (x : Port) : (s.removeTile id).port x = s.port x := by cases x <;> rfl
@[simp] theorem State.removeEntry_port (s : State) (p : Port) (id : TileId) (x : Port) : (s.removeEntry p id).port x = s.port x := by cases x <;> rfl
@[simp] theorem State.dropEntries_port (s : State) (p : Port) (x : Port) : (s.dropEntries p).port x = s.port x := by cases x <;> rfl
@[simp] theorem State.returnPages_port (s : State) (c : List Nat) (x : Port) : (s.returnPages c).port x = s.port x := by cases x <;> rfl
@[simp] theorem State.modContext_port (s : State) (f : ExposureContext → ExposureContext) (x : Port) : (s.modContext f).port x = s.port x := by cases x <;> rfl
@[simp] theorem State.unitIdle_port (s : State) (x : Port) : (s.unitIdle).port x = s.port x := by cases x <;> rfl
@[simp] theorem State.stopTake_port (s : State) (x : Port) : (s.stopTake).port x = s.port x := by cases x <;> rfl
@[simp] theorem State.withTimer_port (s : State) (t : UnitTimer) (x : Port) : (s.withTimer t).port x = s.port x := by cases x <;> rfl

/-! ### Plates -/

theorem State.plate_congr {s t : State} (h : t.plates = s.plates) (i : Nat) : t.plate i = s.plate i := by
  simp [State.plate, h]

theorem State.plate_setPlate (s : State) (i j : Nat) (r : Option Plate) :
    (s.setPlate i r).plate j = if i = j ∧ j < 32 then r else s.plate j := by
  simp only [State.plate, State.setPlate_plates, Vector.getElem?_setIfInBounds]
  split <;> split <;> simp_all

/-- A slot above 31 holds no plate (01 R2). -/
theorem State.plate_of_large (s : State) {i : Nat} (h : 32 ≤ i) : s.plate i = none := by
  simp [State.plate, h]

theorem State.lt_of_plate {s : State} {i : Nat} {pl : Plate} (h : s.plate i = some pl) : i < 32 := by
  by_contra hi
  rw [s.plate_of_large (by omega)] at h
  cases h

@[simp] theorem State.setPort_plate (s : State) (p : Port) (q : PortState) (j : Nat) : (s.setPort p q).plate j = s.plate j := by simp [State.plate]
@[simp] theorem State.fresh_plate (s : State) (j : Nat) : (s.fresh).plate j = s.plate j := by simp [State.plate]
@[simp] theorem State.emit_plate (s : State) (e : Emission) (j : Nat) : (s.emit e).plate j = s.plate j := by simp [State.plate]
@[simp] theorem State.modProgram_plate (s : State) (tag : Nat) (f : Program → Program) (j : Nat) : (s.modProgram tag f).plate j = s.plate j := by simp [State.plate]
@[simp] theorem State.modTile_plate (s : State) (id : TileId) (f : TileEntry → TileEntry) (j : Nat) : (s.modTile id f).plate j = s.plate j := by simp [State.plate]
@[simp] theorem State.removeTile_plate (s : State) (id : TileId) (j : Nat) : (s.removeTile id).plate j = s.plate j := by simp [State.plate]
@[simp] theorem State.removeEntry_plate (s : State) (p : Port) (id : TileId) (j : Nat) : (s.removeEntry p id).plate j = s.plate j := by simp [State.plate]
@[simp] theorem State.dropEntries_plate (s : State) (p : Port) (j : Nat) : (s.dropEntries p).plate j = s.plate j := by simp [State.plate]
@[simp] theorem State.returnPages_plate (s : State) (c : List Nat) (j : Nat) : (s.returnPages c).plate j = s.plate j := by simp [State.plate]
@[simp] theorem State.modContext_plate (s : State) (f : ExposureContext → ExposureContext) (j : Nat) : (s.modContext f).plate j = s.plate j := by simp [State.plate]
@[simp] theorem State.unitIdle_plate (s : State) (j : Nat) : (s.unitIdle).plate j = s.plate j := by simp [State.plate]
@[simp] theorem State.stopTake_plate (s : State) (j : Nat) : (s.stopTake).plate j = s.plate j := by simp [State.plate]
@[simp] theorem State.withTimer_plate (s : State) (t : UnitTimer) (j : Nat) : (s.withTimer t).plate j = s.plate j := by simp [State.plate]

end Sys2Proof.Machine
end

