-- ==== Sys2Proof/Laws/Ops.lean ====
section
/-! SUPPORT. What each shared operation can touch: one lemma per operation, which says of every field the operation never
changes that it stands as it was. -/

namespace Sys2Proof.Machine

@[simp] theorem State.place_rest (s : State) (p : Port) (e : OutEntry) :
    (s.place p e).plates = s.plates ∧ (s.place p e).occupant = s.occupant ∧ (s.place p e).indicator = s.indicator ∧
    (s.place p e).registration = s.registration ∧ (s.place p e).programs = s.programs ∧
    (s.place p e).tagCounter = s.tagCounter ∧ (s.place p e).unit = s.unit ∧ (s.place p e).lamp = s.lamp ∧
    (s.place p e).cal = s.cal ∧ (s.place p e).calContext = s.calContext ∧ (s.place p e).mergeQueue = s.mergeQueue ∧
    (s.place p e).mergeContext = s.mergeContext ∧ (s.place p e).freePages = s.freePages ∧
    (s.place p e).directory = s.directory ∧ (s.place p e).allocWaiting = s.allocWaiting ∧
    (s.place p e).pages = s.pages ∧ (s.place p e).entries = s.entries ∧ (s.place p e).settings = s.settings ∧
    (s.place p e).sent = s.sent ∧ (s.place p e).pending = s.pending := by
  simp [State.place]

@[simp] theorem State.reply_rest (s : State) (p : Port) (m : Message) (st : Status) (b : Body) :
    (s.reply p m st b).plates = s.plates ∧ (s.reply p m st b).occupant = s.occupant ∧
    (s.reply p m st b).indicator = s.indicator ∧ (s.reply p m st b).registration = s.registration ∧
    (s.reply p m st b).programs = s.programs ∧ (s.reply p m st b).tagCounter = s.tagCounter ∧
    (s.reply p m st b).unit = s.unit ∧ (s.reply p m st b).lamp = s.lamp ∧ (s.reply p m st b).cal = s.cal ∧
    (s.reply p m st b).calContext = s.calContext ∧ (s.reply p m st b).mergeQueue = s.mergeQueue ∧
    (s.reply p m st b).mergeContext = s.mergeContext ∧ (s.reply p m st b).freePages = s.freePages ∧
    (s.reply p m st b).directory = s.directory ∧ (s.reply p m st b).allocWaiting = s.allocWaiting ∧
    (s.reply p m st b).pages = s.pages ∧ (s.reply p m st b).entries = s.entries ∧
    (s.reply p m st b).settings = s.settings ∧ (s.reply p m st b).sent = s.sent ∧
    (s.reply p m st b).pending = s.pending := by
  simp [State.reply]

@[simp] theorem State.beginSending_rest (s : State) (p : Port) :
    (s.beginSending p).plates = s.plates ∧ (s.beginSending p).occupant = s.occupant ∧
    (s.beginSending p).indicator = s.indicator ∧ (s.beginSending p).registration = s.registration ∧
    (s.beginSending p).programs = s.programs ∧ (s.beginSending p).tagCounter = s.tagCounter ∧
    (s.beginSending p).unit = s.unit ∧ (s.beginSending p).lamp = s.lamp ∧ (s.beginSending p).cal = s.cal ∧
    (s.beginSending p).calContext = s.calContext ∧ (s.beginSending p).mergeQueue = s.mergeQueue ∧
    (s.beginSending p).mergeContext = s.mergeContext ∧ (s.beginSending p).freePages = s.freePages ∧
    (s.beginSending p).directory = s.directory ∧ (s.beginSending p).allocWaiting = s.allocWaiting ∧
    (s.beginSending p).pages = s.pages ∧ (s.beginSending p).entries = s.entries ∧
    (s.beginSending p).settings = s.settings ∧ (s.beginSending p).sent = s.sent ∧
    (s.beginSending p).pending = s.pending := by
  simp [State.beginSending]

@[simp] theorem State.modPlate_rest (s : State) (i : Nat) (f : Plate → Plate) :
    (s.modPlate i f).registration = s.registration ∧ (s.modPlate i f).programs = s.programs ∧
    (s.modPlate i f).tagCounter = s.tagCounter ∧ (s.modPlate i f).unit = s.unit ∧ (s.modPlate i f).lamp = s.lamp ∧
    (s.modPlate i f).cal = s.cal ∧ (s.modPlate i f).calContext = s.calContext ∧
    (s.modPlate i f).mergeQueue = s.mergeQueue ∧ (s.modPlate i f).mergeContext = s.mergeContext ∧
    (s.modPlate i f).freePages = s.freePages ∧ (s.modPlate i f).directory = s.directory ∧
    (s.modPlate i f).allocWaiting = s.allocWaiting ∧ (s.modPlate i f).pages = s.pages ∧
    (s.modPlate i f).entries = s.entries ∧ (s.modPlate i f).ports = s.ports ∧ (s.modPlate i f).settings = s.settings ∧
    (s.modPlate i f).sent = s.sent ∧ (s.modPlate i f).pending = s.pending := by
  unfold State.modPlate; split <;> simp

@[simp] theorem State.charge_rest (s : State) (i : Nat) (f : Plate → ChargeAnswer × Plate) :
    ((s.charge i f).2).registration = s.registration ∧ ((s.charge i f).2).programs = s.programs ∧
    ((s.charge i f).2).tagCounter = s.tagCounter ∧ ((s.charge i f).2).unit = s.unit ∧
    ((s.charge i f).2).lamp = s.lamp ∧ ((s.charge i f).2).cal = s.cal ∧ ((s.charge i f).2).calContext = s.calContext ∧
    ((s.charge i f).2).mergeQueue = s.mergeQueue ∧ ((s.charge i f).2).mergeContext = s.mergeContext ∧
    ((s.charge i f).2).freePages = s.freePages ∧ ((s.charge i f).2).directory = s.directory ∧
    ((s.charge i f).2).allocWaiting = s.allocWaiting ∧ ((s.charge i f).2).pages = s.pages ∧
    ((s.charge i f).2).entries = s.entries ∧ ((s.charge i f).2).ports = s.ports ∧
    ((s.charge i f).2).settings = s.settings ∧ ((s.charge i f).2).sent = s.sent ∧
    ((s.charge i f).2).pending = s.pending := by
  unfold State.charge; (repeat' split) <;> simp

@[simp] theorem State.chargeTile_rest (s : State) (tag cost : Nat) (retake : Bool) :
    ((s.chargeTile tag cost retake).2).registration = s.registration ∧
    ((s.chargeTile tag cost retake).2).tagCounter = s.tagCounter ∧ ((s.chargeTile tag cost retake).2).unit = s.unit ∧
    ((s.chargeTile tag cost retake).2).lamp = s.lamp ∧ ((s.chargeTile tag cost retake).2).cal = s.cal ∧
    ((s.chargeTile tag cost retake).2).calContext = s.calContext ∧
    ((s.chargeTile tag cost retake).2).mergeQueue = s.mergeQueue ∧
    ((s.chargeTile tag cost retake).2).mergeContext = s.mergeContext ∧
    ((s.chargeTile tag cost retake).2).freePages = s.freePages ∧
    ((s.chargeTile tag cost retake).2).directory = s.directory ∧
    ((s.chargeTile tag cost retake).2).allocWaiting = s.allocWaiting ∧
    ((s.chargeTile tag cost retake).2).pages = s.pages ∧ ((s.chargeTile tag cost retake).2).entries = s.entries ∧
    ((s.chargeTile tag cost retake).2).ports = s.ports ∧ ((s.chargeTile tag cost retake).2).settings = s.settings ∧
    ((s.chargeTile tag cost retake).2).sent = s.sent ∧ ((s.chargeTile tag cost retake).2).pending = s.pending := by
  unfold State.chargeTile; split
  · simp
  · rename_i g _
    have h := State.charge_rest s g.content.slot (fun pl => if retake then pl.unreservedCharge .staged cost else pl.programCharge tag cost)
    split
    · simp
    · split <;> simp_all

@[simp] theorem State.chargeMargin_rest (s : State) (cost : Nat) :
    ((s.chargeMargin cost).2).programs = s.programs ∧ ((s.chargeMargin cost).2).tagCounter = s.tagCounter ∧
    ((s.chargeMargin cost).2).unit = s.unit ∧ ((s.chargeMargin cost).2).lamp = s.lamp ∧
    ((s.chargeMargin cost).2).cal = s.cal ∧ ((s.chargeMargin cost).2).calContext = s.calContext ∧
    ((s.chargeMargin cost).2).mergeQueue = s.mergeQueue ∧ ((s.chargeMargin cost).2).mergeContext = s.mergeContext ∧
    ((s.chargeMargin cost).2).freePages = s.freePages ∧ ((s.chargeMargin cost).2).directory = s.directory ∧
    ((s.chargeMargin cost).2).allocWaiting = s.allocWaiting ∧ ((s.chargeMargin cost).2).pages = s.pages ∧
    ((s.chargeMargin cost).2).entries = s.entries ∧ ((s.chargeMargin cost).2).ports = s.ports ∧
    ((s.chargeMargin cost).2).settings = s.settings ∧ ((s.chargeMargin cost).2).sent = s.sent ∧
    ((s.chargeMargin cost).2).pending = s.pending := by
  unfold State.chargeMargin; split
  · simp
  · rename_i r _
    have h := State.charge_rest s r.slot (fun pl => pl.unreservedCharge .registering cost)
    split <;> simp_all

@[simp] theorem State.releaseProgram_rest (s : State) (tag : Nat) :
    (s.releaseProgram tag).registration = s.registration ∧ (s.releaseProgram tag).tagCounter = s.tagCounter ∧
    (s.releaseProgram tag).unit = s.unit ∧ (s.releaseProgram tag).lamp = s.lamp ∧ (s.releaseProgram tag).cal = s.cal ∧
    (s.releaseProgram tag).calContext = s.calContext ∧ (s.releaseProgram tag).mergeQueue = s.mergeQueue ∧
    (s.releaseProgram tag).mergeContext = s.mergeContext ∧ (s.releaseProgram tag).freePages = s.freePages ∧
    (s.releaseProgram tag).directory = s.directory ∧ (s.releaseProgram tag).allocWaiting = s.allocWaiting ∧
    (s.releaseProgram tag).pages = s.pages ∧ (s.releaseProgram tag).entries = s.entries ∧
    (s.releaseProgram tag).ports = s.ports ∧ (s.releaseProgram tag).settings = s.settings ∧
    (s.releaseProgram tag).sent = s.sent ∧ (s.releaseProgram tag).pending = s.pending := by
  unfold State.releaseProgram; (repeat' split) <;> simp

@[simp] theorem State.issueNotice_rest (s : State) (i : Nat) (n : PendingNotice) :
    (s.issueNotice i n).registration = s.registration ∧ (s.issueNotice i n).programs = s.programs ∧
    (s.issueNotice i n).tagCounter = s.tagCounter ∧ (s.issueNotice i n).unit = s.unit ∧
    (s.issueNotice i n).lamp = s.lamp ∧ (s.issueNotice i n).cal = s.cal ∧
    (s.issueNotice i n).calContext = s.calContext ∧ (s.issueNotice i n).mergeQueue = s.mergeQueue ∧
    (s.issueNotice i n).mergeContext = s.mergeContext ∧ (s.issueNotice i n).freePages = s.freePages ∧
    (s.issueNotice i n).directory = s.directory ∧ (s.issueNotice i n).allocWaiting = s.allocWaiting ∧
    (s.issueNotice i n).pages = s.pages ∧ (s.issueNotice i n).entries = s.entries ∧
    (s.issueNotice i n).settings = s.settings ∧ (s.issueNotice i n).sent = s.sent ∧
    (s.issueNotice i n).pending = s.pending := by
  unfold State.issueNotice; (repeat' split) <;> simp

@[simp] theorem State.issuePending_rest (s : State) (i : Nat) :
    (s.issuePending i).registration = s.registration ∧ (s.issuePending i).programs = s.programs ∧
    (s.issuePending i).tagCounter = s.tagCounter ∧ (s.issuePending i).unit = s.unit ∧
    (s.issuePending i).lamp = s.lamp ∧ (s.issuePending i).cal = s.cal ∧ (s.issuePending i).calContext = s.calContext ∧
    (s.issuePending i).mergeQueue = s.mergeQueue ∧ (s.issuePending i).mergeContext = s.mergeContext ∧
    (s.issuePending i).freePages = s.freePages ∧ (s.issuePending i).directory = s.directory ∧
    (s.issuePending i).allocWaiting = s.allocWaiting ∧ (s.issuePending i).pages = s.pages ∧
    (s.issuePending i).entries = s.entries ∧ (s.issuePending i).settings = s.settings ∧
    (s.issuePending i).sent = s.sent ∧ (s.issuePending i).pending = s.pending := by
  unfold State.issuePending; (repeat' split) <;> simp

@[simp] theorem State.removeFailedTiles_rest (s : State) (tag : Nat) :
    (s.removeFailedTiles tag).plates = s.plates ∧ (s.removeFailedTiles tag).occupant = s.occupant ∧
    (s.removeFailedTiles tag).indicator = s.indicator ∧ (s.removeFailedTiles tag).registration = s.registration ∧
    (s.removeFailedTiles tag).programs = s.programs ∧ (s.removeFailedTiles tag).tagCounter = s.tagCounter ∧
    (s.removeFailedTiles tag).unit = s.unit ∧ (s.removeFailedTiles tag).lamp = s.lamp ∧
    (s.removeFailedTiles tag).cal = s.cal ∧ (s.removeFailedTiles tag).calContext = s.calContext ∧
    (s.removeFailedTiles tag).mergeQueue = s.mergeQueue ∧ (s.removeFailedTiles tag).mergeContext = s.mergeContext ∧
    (s.removeFailedTiles tag).freePages = s.freePages ∧ (s.removeFailedTiles tag).allocWaiting = s.allocWaiting ∧
    (s.removeFailedTiles tag).pages = s.pages ∧ (s.removeFailedTiles tag).entries = s.entries ∧
    (s.removeFailedTiles tag).ports = s.ports ∧ (s.removeFailedTiles tag).settings = s.settings ∧
    (s.removeFailedTiles tag).sent = s.sent ∧ (s.removeFailedTiles tag).pending = s.pending := by
  simp [State.removeFailedTiles]

@[simp] theorem State.dropProgram_rest (s : State) (tag : Nat) :
    (s.dropProgram tag).plates = s.plates ∧ (s.dropProgram tag).occupant = s.occupant ∧
    (s.dropProgram tag).indicator = s.indicator ∧ (s.dropProgram tag).registration = s.registration ∧
    (s.dropProgram tag).tagCounter = s.tagCounter ∧ (s.dropProgram tag).unit = s.unit ∧
    (s.dropProgram tag).lamp = s.lamp ∧ (s.dropProgram tag).cal = s.cal ∧
    (s.dropProgram tag).calContext = s.calContext ∧ (s.dropProgram tag).mergeQueue = s.mergeQueue ∧
    (s.dropProgram tag).mergeContext = s.mergeContext ∧ (s.dropProgram tag).freePages = s.freePages ∧
    (s.dropProgram tag).allocWaiting = s.allocWaiting ∧ (s.dropProgram tag).pages = s.pages ∧
    (s.dropProgram tag).entries = s.entries ∧ (s.dropProgram tag).ports = s.ports ∧
    (s.dropProgram tag).settings = s.settings ∧ (s.dropProgram tag).sent = s.sent ∧
    (s.dropProgram tag).pending = s.pending := by
  simp [State.dropProgram]

@[simp] theorem State.deliverDone_rest (s : State) (tag : Nat) :
    (s.deliverDone tag).plates = s.plates ∧ (s.deliverDone tag).occupant = s.occupant ∧
    (s.deliverDone tag).indicator = s.indicator ∧ (s.deliverDone tag).registration = s.registration ∧
    (s.deliverDone tag).tagCounter = s.tagCounter ∧ (s.deliverDone tag).unit = s.unit ∧
    (s.deliverDone tag).lamp = s.lamp ∧ (s.deliverDone tag).cal = s.cal ∧
    (s.deliverDone tag).calContext = s.calContext ∧ (s.deliverDone tag).mergeQueue = s.mergeQueue ∧
    (s.deliverDone tag).mergeContext = s.mergeContext ∧ (s.deliverDone tag).freePages = s.freePages ∧
    (s.deliverDone tag).allocWaiting = s.allocWaiting ∧ (s.deliverDone tag).pages = s.pages ∧
    (s.deliverDone tag).entries = s.entries ∧ (s.deliverDone tag).settings = s.settings ∧
    (s.deliverDone tag).sent = s.sent ∧ (s.deliverDone tag).pending = s.pending := by
  unfold State.deliverDone; (repeat' split) <;> simp

@[simp] theorem State.finishProgram_rest (s : State) (tag : Nat) :
    (s.finishProgram tag).plates = s.plates ∧ (s.finishProgram tag).occupant = s.occupant ∧
    (s.finishProgram tag).indicator = s.indicator ∧ (s.finishProgram tag).registration = s.registration ∧
    (s.finishProgram tag).tagCounter = s.tagCounter ∧ (s.finishProgram tag).unit = s.unit ∧
    (s.finishProgram tag).lamp = s.lamp ∧ (s.finishProgram tag).cal = s.cal ∧
    (s.finishProgram tag).calContext = s.calContext ∧ (s.finishProgram tag).mergeQueue = s.mergeQueue ∧
    (s.finishProgram tag).mergeContext = s.mergeContext ∧ (s.finishProgram tag).freePages = s.freePages ∧
    (s.finishProgram tag).allocWaiting = s.allocWaiting ∧ (s.finishProgram tag).pages = s.pages ∧
    (s.finishProgram tag).entries = s.entries ∧ (s.finishProgram tag).settings = s.settings ∧
    (s.finishProgram tag).sent = s.sent ∧ (s.finishProgram tag).pending = s.pending := by
  simp [State.finishProgram]

@[simp] theorem State.withdrawCall_rest (s : State) (i : Nat) :
    (s.withdrawCall i).registration = s.registration ∧ (s.withdrawCall i).programs = s.programs ∧
    (s.withdrawCall i).tagCounter = s.tagCounter ∧ (s.withdrawCall i).unit = s.unit ∧
    (s.withdrawCall i).lamp = s.lamp ∧ (s.withdrawCall i).cal = s.cal ∧ (s.withdrawCall i).calContext = s.calContext ∧
    (s.withdrawCall i).mergeQueue = s.mergeQueue ∧ (s.withdrawCall i).mergeContext = s.mergeContext ∧
    (s.withdrawCall i).freePages = s.freePages ∧ (s.withdrawCall i).directory = s.directory ∧
    (s.withdrawCall i).allocWaiting = s.allocWaiting ∧ (s.withdrawCall i).pages = s.pages ∧
    (s.withdrawCall i).entries = s.entries ∧ (s.withdrawCall i).settings = s.settings ∧
    (s.withdrawCall i).sent = s.sent ∧ (s.withdrawCall i).pending = s.pending := by
  unfold State.withdrawCall; (repeat' split) <;> simp

@[simp] theorem State.sendTileReady_rest (s : State) (id : TileId) (p : Port) :
    (s.sendTileReady id p).plates = s.plates ∧ (s.sendTileReady id p).occupant = s.occupant ∧
    (s.sendTileReady id p).indicator = s.indicator ∧ (s.sendTileReady id p).registration = s.registration ∧
    (s.sendTileReady id p).programs = s.programs ∧ (s.sendTileReady id p).tagCounter = s.tagCounter ∧
    (s.sendTileReady id p).unit = s.unit ∧ (s.sendTileReady id p).lamp = s.lamp ∧ (s.sendTileReady id p).cal = s.cal ∧
    (s.sendTileReady id p).calContext = s.calContext ∧ (s.sendTileReady id p).mergeQueue = s.mergeQueue ∧
    (s.sendTileReady id p).mergeContext = s.mergeContext ∧ (s.sendTileReady id p).freePages = s.freePages ∧
    (s.sendTileReady id p).directory = s.directory ∧ (s.sendTileReady id p).allocWaiting = s.allocWaiting ∧
    (s.sendTileReady id p).pages = s.pages ∧ (s.sendTileReady id p).entries = s.entries ∧
    (s.sendTileReady id p).settings = s.settings ∧ (s.sendTileReady id p).sent = s.sent ∧
    (s.sendTileReady id p).pending = s.pending := by
  unfold State.sendTileReady; (repeat' split) <;> simp

@[simp] theorem State.turnEntry_rest (s : State) (id : TileId) (st : EntryState) :
    (s.turnEntry id st).plates = s.plates ∧ (s.turnEntry id st).occupant = s.occupant ∧
    (s.turnEntry id st).indicator = s.indicator ∧ (s.turnEntry id st).registration = s.registration ∧
    (s.turnEntry id st).programs = s.programs ∧ (s.turnEntry id st).tagCounter = s.tagCounter ∧
    (s.turnEntry id st).unit = s.unit ∧ (s.turnEntry id st).lamp = s.lamp ∧ (s.turnEntry id st).cal = s.cal ∧
    (s.turnEntry id st).calContext = s.calContext ∧ (s.turnEntry id st).mergeQueue = s.mergeQueue ∧
    (s.turnEntry id st).mergeContext = s.mergeContext ∧ (s.turnEntry id st).freePages = s.freePages ∧
    (s.turnEntry id st).directory = s.directory ∧ (s.turnEntry id st).allocWaiting = s.allocWaiting ∧
    (s.turnEntry id st).pages = s.pages ∧ (s.turnEntry id st).ports = s.ports ∧
    (s.turnEntry id st).settings = s.settings ∧ (s.turnEntry id st).sent = s.sent ∧
    (s.turnEntry id st).pending = s.pending := by
  simp [State.turnEntry]

@[simp] theorem State.entryTurnsReady_rest (s : State) (id : TileId) :
    (s.entryTurnsReady id).plates = s.plates ∧ (s.entryTurnsReady id).occupant = s.occupant ∧
    (s.entryTurnsReady id).indicator = s.indicator ∧ (s.entryTurnsReady id).registration = s.registration ∧
    (s.entryTurnsReady id).programs = s.programs ∧ (s.entryTurnsReady id).tagCounter = s.tagCounter ∧
    (s.entryTurnsReady id).unit = s.unit ∧ (s.entryTurnsReady id).lamp = s.lamp ∧ (s.entryTurnsReady id).cal = s.cal ∧
    (s.entryTurnsReady id).calContext = s.calContext ∧ (s.entryTurnsReady id).mergeQueue = s.mergeQueue ∧
    (s.entryTurnsReady id).mergeContext = s.mergeContext ∧ (s.entryTurnsReady id).freePages = s.freePages ∧
    (s.entryTurnsReady id).directory = s.directory ∧ (s.entryTurnsReady id).allocWaiting = s.allocWaiting ∧
    (s.entryTurnsReady id).pages = s.pages ∧ (s.entryTurnsReady id).settings = s.settings ∧
    (s.entryTurnsReady id).sent = s.sent ∧ (s.entryTurnsReady id).pending = s.pending := by
  unfold State.entryTurnsReady; (repeat' split) <;> simp

@[simp] theorem State.releaseReader_rest (s : State) (id : TileId) :
    (s.releaseReader id).plates = s.plates ∧ (s.releaseReader id).occupant = s.occupant ∧
    (s.releaseReader id).indicator = s.indicator ∧ (s.releaseReader id).registration = s.registration ∧
    (s.releaseReader id).programs = s.programs ∧ (s.releaseReader id).tagCounter = s.tagCounter ∧
    (s.releaseReader id).unit = s.unit ∧ (s.releaseReader id).lamp = s.lamp ∧ (s.releaseReader id).cal = s.cal ∧
    (s.releaseReader id).calContext = s.calContext ∧ (s.releaseReader id).mergeQueue = s.mergeQueue ∧
    (s.releaseReader id).mergeContext = s.mergeContext ∧ (s.releaseReader id).freePages = s.freePages ∧
    (s.releaseReader id).allocWaiting = s.allocWaiting ∧ (s.releaseReader id).pages = s.pages ∧
    (s.releaseReader id).settings = s.settings ∧ (s.releaseReader id).sent = s.sent ∧
    (s.releaseReader id).pending = s.pending := by
  simp [State.releaseReader]

@[simp] theorem State.freeTile_rest (s : State) (t : TileEntry) :
    (s.freeTile t).plates = s.plates ∧ (s.freeTile t).occupant = s.occupant ∧ (s.freeTile t).indicator = s.indicator ∧
    (s.freeTile t).registration = s.registration ∧ (s.freeTile t).programs = s.programs ∧
    (s.freeTile t).tagCounter = s.tagCounter ∧ (s.freeTile t).unit = s.unit ∧ (s.freeTile t).lamp = s.lamp ∧
    (s.freeTile t).cal = s.cal ∧ (s.freeTile t).calContext = s.calContext ∧ (s.freeTile t).mergeQueue = s.mergeQueue ∧
    (s.freeTile t).mergeContext = s.mergeContext ∧ (s.freeTile t).allocWaiting = s.allocWaiting ∧
    (s.freeTile t).pages = s.pages ∧ (s.freeTile t).entries = s.entries ∧ (s.freeTile t).ports = s.ports ∧
    (s.freeTile t).settings = s.settings ∧ (s.freeTile t).sent = s.sent ∧ (s.freeTile t).pending = s.pending := by
  simp [State.freeTile]

@[simp] theorem State.closeDelivered_rest (s : State) (p : Port) (r : Read) (t : TileEntry) :
    (s.closeDelivered p r t).plates = s.plates ∧ (s.closeDelivered p r t).occupant = s.occupant ∧
    (s.closeDelivered p r t).indicator = s.indicator ∧ (s.closeDelivered p r t).registration = s.registration ∧
    (s.closeDelivered p r t).programs = s.programs ∧ (s.closeDelivered p r t).tagCounter = s.tagCounter ∧
    (s.closeDelivered p r t).unit = s.unit ∧ (s.closeDelivered p r t).lamp = s.lamp ∧
    (s.closeDelivered p r t).cal = s.cal ∧ (s.closeDelivered p r t).calContext = s.calContext ∧
    (s.closeDelivered p r t).mergeQueue = s.mergeQueue ∧ (s.closeDelivered p r t).mergeContext = s.mergeContext ∧
    (s.closeDelivered p r t).allocWaiting = s.allocWaiting ∧ (s.closeDelivered p r t).pages = s.pages ∧
    (s.closeDelivered p r t).settings = s.settings ∧ (s.closeDelivered p r t).sent = s.sent ∧
    (s.closeDelivered p r t).pending = s.pending := by
  unfold State.closeDelivered; dsimp only; (repeat' split) <;> simp

@[simp] theorem State.endReadSilently_rest (s : State) (p : Port) :
    (s.endReadSilently p).plates = s.plates ∧ (s.endReadSilently p).occupant = s.occupant ∧
    (s.endReadSilently p).indicator = s.indicator ∧ (s.endReadSilently p).registration = s.registration ∧
    (s.endReadSilently p).programs = s.programs ∧ (s.endReadSilently p).tagCounter = s.tagCounter ∧
    (s.endReadSilently p).unit = s.unit ∧ (s.endReadSilently p).lamp = s.lamp ∧ (s.endReadSilently p).cal = s.cal ∧
    (s.endReadSilently p).calContext = s.calContext ∧ (s.endReadSilently p).mergeQueue = s.mergeQueue ∧
    (s.endReadSilently p).mergeContext = s.mergeContext ∧ (s.endReadSilently p).freePages = s.freePages ∧
    (s.endReadSilently p).allocWaiting = s.allocWaiting ∧ (s.endReadSilently p).pages = s.pages ∧
    (s.endReadSilently p).settings = s.settings ∧ (s.endReadSilently p).sent = s.sent ∧
    (s.endReadSilently p).pending = s.pending := by
  unfold State.endReadSilently; dsimp only; (repeat' split) <;> simp

@[simp] theorem State.judgeBurst_rest (s : State) (p : Port) :
    (s.judgeBurst p).plates = s.plates ∧ (s.judgeBurst p).occupant = s.occupant ∧
    (s.judgeBurst p).indicator = s.indicator ∧ (s.judgeBurst p).registration = s.registration ∧
    (s.judgeBurst p).programs = s.programs ∧ (s.judgeBurst p).tagCounter = s.tagCounter ∧
    (s.judgeBurst p).unit = s.unit ∧ (s.judgeBurst p).lamp = s.lamp ∧ (s.judgeBurst p).cal = s.cal ∧
    (s.judgeBurst p).calContext = s.calContext ∧ (s.judgeBurst p).mergeQueue = s.mergeQueue ∧
    (s.judgeBurst p).mergeContext = s.mergeContext ∧ (s.judgeBurst p).freePages = s.freePages ∧
    (s.judgeBurst p).directory = s.directory ∧ (s.judgeBurst p).allocWaiting = s.allocWaiting ∧
    (s.judgeBurst p).pages = s.pages ∧ (s.judgeBurst p).entries = s.entries ∧ (s.judgeBurst p).settings = s.settings ∧
    (s.judgeBurst p).sent = s.sent ∧ (s.judgeBurst p).pending = s.pending := by
  unfold State.judgeBurst; (repeat' split) <;> simp

@[simp] theorem State.judgeTileBurst_rest (s : State) (id : TileId) :
    (s.judgeTileBurst id).plates = s.plates ∧ (s.judgeTileBurst id).occupant = s.occupant ∧
    (s.judgeTileBurst id).indicator = s.indicator ∧ (s.judgeTileBurst id).registration = s.registration ∧
    (s.judgeTileBurst id).programs = s.programs ∧ (s.judgeTileBurst id).tagCounter = s.tagCounter ∧
    (s.judgeTileBurst id).unit = s.unit ∧ (s.judgeTileBurst id).lamp = s.lamp ∧ (s.judgeTileBurst id).cal = s.cal ∧
    (s.judgeTileBurst id).calContext = s.calContext ∧ (s.judgeTileBurst id).mergeQueue = s.mergeQueue ∧
    (s.judgeTileBurst id).mergeContext = s.mergeContext ∧ (s.judgeTileBurst id).freePages = s.freePages ∧
    (s.judgeTileBurst id).directory = s.directory ∧ (s.judgeTileBurst id).allocWaiting = s.allocWaiting ∧
    (s.judgeTileBurst id).pages = s.pages ∧ (s.judgeTileBurst id).entries = s.entries ∧
    (s.judgeTileBurst id).settings = s.settings ∧ (s.judgeTileBurst id).sent = s.sent ∧
    (s.judgeTileBurst id).pending = s.pending := by
  unfold State.judgeTileBurst; (repeat' split) <;> simp

@[simp] theorem State.failDrain_rest (s : State) (t : TileEntry) :
    (s.failDrain t).plates = s.plates ∧ (s.failDrain t).occupant = s.occupant ∧
    (s.failDrain t).indicator = s.indicator ∧ (s.failDrain t).registration = s.registration ∧
    (s.failDrain t).programs = s.programs ∧ (s.failDrain t).tagCounter = s.tagCounter ∧
    (s.failDrain t).unit = s.unit ∧ (s.failDrain t).lamp = s.lamp ∧ (s.failDrain t).cal = s.cal ∧
    (s.failDrain t).calContext = s.calContext ∧ (s.failDrain t).mergeQueue = s.mergeQueue ∧
    (s.failDrain t).mergeContext = s.mergeContext ∧ (s.failDrain t).freePages = s.freePages ∧
    (s.failDrain t).directory = s.directory ∧ (s.failDrain t).allocWaiting = s.allocWaiting ∧
    (s.failDrain t).pages = s.pages ∧ (s.failDrain t).entries = s.entries ∧ (s.failDrain t).settings = s.settings ∧
    (s.failDrain t).sent = s.sent ∧ (s.failDrain t).pending = s.pending := by
  unfold State.failDrain; (repeat' split) <;> simp

@[simp] theorem State.placeWaitingClose_rest (s : State) (p : Port) :
    (s.placeWaitingClose p).plates = s.plates ∧ (s.placeWaitingClose p).occupant = s.occupant ∧
    (s.placeWaitingClose p).indicator = s.indicator ∧ (s.placeWaitingClose p).registration = s.registration ∧
    (s.placeWaitingClose p).programs = s.programs ∧ (s.placeWaitingClose p).tagCounter = s.tagCounter ∧
    (s.placeWaitingClose p).unit = s.unit ∧ (s.placeWaitingClose p).lamp = s.lamp ∧
    (s.placeWaitingClose p).cal = s.cal ∧ (s.placeWaitingClose p).calContext = s.calContext ∧
    (s.placeWaitingClose p).mergeQueue = s.mergeQueue ∧ (s.placeWaitingClose p).mergeContext = s.mergeContext ∧
    (s.placeWaitingClose p).freePages = s.freePages ∧ (s.placeWaitingClose p).directory = s.directory ∧
    (s.placeWaitingClose p).allocWaiting = s.allocWaiting ∧ (s.placeWaitingClose p).pages = s.pages ∧
    (s.placeWaitingClose p).entries = s.entries ∧ (s.placeWaitingClose p).settings = s.settings ∧
    (s.placeWaitingClose p).sent = s.sent ∧ (s.placeWaitingClose p).pending = s.pending := by
  unfold State.placeWaitingClose; (repeat' split) <;> simp

@[simp] theorem State.serveClaim_rest (s : State) (p : Port) (c : Claim) :
    (s.serveClaim p c).registration = s.registration ∧ (s.serveClaim p c).tagCounter = s.tagCounter ∧
    (s.serveClaim p c).unit = s.unit ∧ (s.serveClaim p c).lamp = s.lamp ∧ (s.serveClaim p c).cal = s.cal ∧
    (s.serveClaim p c).calContext = s.calContext ∧ (s.serveClaim p c).mergeQueue = s.mergeQueue ∧
    (s.serveClaim p c).mergeContext = s.mergeContext ∧ (s.serveClaim p c).freePages = s.freePages ∧
    (s.serveClaim p c).allocWaiting = s.allocWaiting ∧ (s.serveClaim p c).pages = s.pages ∧
    (s.serveClaim p c).entries = s.entries ∧ (s.serveClaim p c).settings = s.settings ∧
    (s.serveClaim p c).sent = s.sent ∧ (s.serveClaim p c).pending = s.pending := by
  cases c <;> simp [State.serveClaim]

@[simp] theorem State.serveUpTo_rest (s : State) (p : Port) (k : Nat) :
    (s.serveUpTo p k).registration = s.registration ∧ (s.serveUpTo p k).tagCounter = s.tagCounter ∧
    (s.serveUpTo p k).unit = s.unit ∧ (s.serveUpTo p k).lamp = s.lamp ∧ (s.serveUpTo p k).cal = s.cal ∧
    (s.serveUpTo p k).calContext = s.calContext ∧ (s.serveUpTo p k).mergeQueue = s.mergeQueue ∧
    (s.serveUpTo p k).mergeContext = s.mergeContext ∧ (s.serveUpTo p k).freePages = s.freePages ∧
    (s.serveUpTo p k).allocWaiting = s.allocWaiting ∧ (s.serveUpTo p k).pages = s.pages ∧
    (s.serveUpTo p k).entries = s.entries ∧ (s.serveUpTo p k).settings = s.settings ∧
    (s.serveUpTo p k).sent = s.sent ∧ (s.serveUpTo p k).pending = s.pending := by
  induction k generalizing s with
  | zero => simp [State.serveUpTo]
  | succ k ih => unfold State.serveUpTo; (repeat' split) <;> simp [ih]

@[simp] theorem State.serveClaims_rest (s : State) (p : Port) :
    (s.serveClaims p).registration = s.registration ∧ (s.serveClaims p).tagCounter = s.tagCounter ∧
    (s.serveClaims p).unit = s.unit ∧ (s.serveClaims p).lamp = s.lamp ∧ (s.serveClaims p).cal = s.cal ∧
    (s.serveClaims p).calContext = s.calContext ∧ (s.serveClaims p).mergeQueue = s.mergeQueue ∧
    (s.serveClaims p).mergeContext = s.mergeContext ∧ (s.serveClaims p).freePages = s.freePages ∧
    (s.serveClaims p).allocWaiting = s.allocWaiting ∧ (s.serveClaims p).pages = s.pages ∧
    (s.serveClaims p).entries = s.entries ∧ (s.serveClaims p).settings = s.settings ∧
    (s.serveClaims p).sent = s.sent ∧ (s.serveClaims p).pending = s.pending := by
  simp [State.serveClaims]

@[simp] theorem State.startMove_rest (s : State) (c : ExposureContext) :
    (s.startMove c).plates = s.plates ∧ (s.startMove c).occupant = s.occupant ∧
    (s.startMove c).indicator = s.indicator ∧ (s.startMove c).registration = s.registration ∧
    (s.startMove c).programs = s.programs ∧ (s.startMove c).tagCounter = s.tagCounter ∧
    (s.startMove c).lamp = s.lamp ∧ (s.startMove c).cal = s.cal ∧ (s.startMove c).calContext = s.calContext ∧
    (s.startMove c).mergeQueue = s.mergeQueue ∧ (s.startMove c).mergeContext = s.mergeContext ∧
    (s.startMove c).freePages = s.freePages ∧ (s.startMove c).directory = s.directory ∧
    (s.startMove c).allocWaiting = s.allocWaiting ∧ (s.startMove c).pages = s.pages ∧
    (s.startMove c).entries = s.entries ∧ (s.startMove c).ports = s.ports ∧ (s.startMove c).settings = s.settings ∧
    (s.startMove c).pending = s.pending := by
  simp [State.startMove]

@[simp] theorem State.resendMove_rest (s : State) (c : ExposureContext) :
    (s.resendMove c).plates = s.plates ∧ (s.resendMove c).occupant = s.occupant ∧
    (s.resendMove c).indicator = s.indicator ∧ (s.resendMove c).registration = s.registration ∧
    (s.resendMove c).programs = s.programs ∧ (s.resendMove c).tagCounter = s.tagCounter ∧
    (s.resendMove c).lamp = s.lamp ∧ (s.resendMove c).cal = s.cal ∧ (s.resendMove c).calContext = s.calContext ∧
    (s.resendMove c).mergeQueue = s.mergeQueue ∧ (s.resendMove c).mergeContext = s.mergeContext ∧
    (s.resendMove c).freePages = s.freePages ∧ (s.resendMove c).directory = s.directory ∧
    (s.resendMove c).allocWaiting = s.allocWaiting ∧ (s.resendMove c).pages = s.pages ∧
    (s.resendMove c).entries = s.entries ∧ (s.resendMove c).ports = s.ports ∧ (s.resendMove c).settings = s.settings ∧
    (s.resendMove c).pending = s.pending := by
  simp [State.resendMove]

@[simp] theorem State.startTake_rest (s : State) :
    (s.startTake).plates = s.plates ∧ (s.startTake).occupant = s.occupant ∧ (s.startTake).indicator = s.indicator ∧
    (s.startTake).registration = s.registration ∧ (s.startTake).programs = s.programs ∧
    (s.startTake).tagCounter = s.tagCounter ∧ (s.startTake).cal = s.cal ∧ (s.startTake).calContext = s.calContext ∧
    (s.startTake).mergeQueue = s.mergeQueue ∧ (s.startTake).mergeContext = s.mergeContext ∧
    (s.startTake).freePages = s.freePages ∧ (s.startTake).directory = s.directory ∧
    (s.startTake).allocWaiting = s.allocWaiting ∧ (s.startTake).pages = s.pages ∧ (s.startTake).entries = s.entries ∧
    (s.startTake).ports = s.ports ∧ (s.startTake).settings = s.settings ∧ (s.startTake).pending = s.pending := by
  unfold State.startTake; (repeat' split) <;> simp

@[simp] theorem State.abandon_rest (s : State) :
    (s.abandon).plates = s.plates ∧ (s.abandon).occupant = s.occupant ∧ (s.abandon).indicator = s.indicator ∧
    (s.abandon).registration = s.registration ∧ (s.abandon).programs = s.programs ∧
    (s.abandon).tagCounter = s.tagCounter ∧ (s.abandon).cal = s.cal ∧ (s.abandon).calContext = s.calContext ∧
    (s.abandon).mergeQueue = s.mergeQueue ∧ (s.abandon).mergeContext = s.mergeContext ∧
    (s.abandon).freePages = s.freePages ∧ (s.abandon).directory = s.directory ∧
    (s.abandon).allocWaiting = s.allocWaiting ∧ (s.abandon).pages = s.pages ∧ (s.abandon).entries = s.entries ∧
    (s.abandon).ports = s.ports ∧ (s.abandon).settings = s.settings ∧ (s.abandon).pending = s.pending := by
  unfold State.abandon; (repeat' split) <;> simp

@[simp] theorem State.grant_rest (s : State) (r : AllocRequest) :
    (s.grant r).plates = s.plates ∧ (s.grant r).occupant = s.occupant ∧ (s.grant r).indicator = s.indicator ∧
    (s.grant r).registration = s.registration ∧ (s.grant r).programs = s.programs ∧
    (s.grant r).tagCounter = s.tagCounter ∧ (s.grant r).unit = s.unit ∧ (s.grant r).lamp = s.lamp ∧
    (s.grant r).cal = s.cal ∧ (s.grant r).calContext = s.calContext ∧ (s.grant r).mergeQueue = s.mergeQueue ∧
    (s.grant r).mergeContext = s.mergeContext ∧ (s.grant r).pages = s.pages ∧ (s.grant r).entries = s.entries ∧
    (s.grant r).ports = s.ports ∧ (s.grant r).settings = s.settings ∧ (s.grant r).sent = s.sent ∧
    (s.grant r).pending = s.pending := by
  simp [State.grant]

@[simp] theorem State.failTile_rest (s : State) (id : TileId) :
    (s.failTile id).plates = s.plates ∧ (s.failTile id).occupant = s.occupant ∧
    (s.failTile id).indicator = s.indicator ∧ (s.failTile id).registration = s.registration ∧
    (s.failTile id).programs = s.programs ∧ (s.failTile id).tagCounter = s.tagCounter ∧
    (s.failTile id).unit = s.unit ∧ (s.failTile id).lamp = s.lamp ∧ (s.failTile id).cal = s.cal ∧
    (s.failTile id).calContext = s.calContext ∧ (s.failTile id).mergeQueue = s.mergeQueue ∧
    (s.failTile id).mergeContext = s.mergeContext ∧ (s.failTile id).allocWaiting = s.allocWaiting ∧
    (s.failTile id).pages = s.pages ∧ (s.failTile id).settings = s.settings ∧ (s.failTile id).sent = s.sent ∧
    (s.failTile id).pending = s.pending := by
  unfold State.failTile; split <;> simp

@[simp] theorem State.handTile_rest (s : State) :
    (s.handTile).plates = s.plates ∧ (s.handTile).occupant = s.occupant ∧ (s.handTile).indicator = s.indicator ∧
    (s.handTile).registration = s.registration ∧ (s.handTile).tagCounter = s.tagCounter ∧ (s.handTile).lamp = s.lamp ∧
    (s.handTile).cal = s.cal ∧ (s.handTile).calContext = s.calContext ∧ (s.handTile).mergeQueue = s.mergeQueue ∧
    (s.handTile).mergeContext = s.mergeContext ∧ (s.handTile).freePages = s.freePages ∧
    (s.handTile).directory = s.directory ∧ (s.handTile).allocWaiting = s.allocWaiting ∧ (s.handTile).pages = s.pages ∧
    (s.handTile).entries = s.entries ∧ (s.handTile).ports = s.ports ∧ (s.handTile).settings = s.settings ∧
    (s.handTile).pending = s.pending := by
  unfold State.handTile; (repeat' split) <;> simp

@[simp] theorem State.requestAllocation_rest (s : State) :
    (s.requestAllocation).plates = s.plates ∧ (s.requestAllocation).occupant = s.occupant ∧
    (s.requestAllocation).indicator = s.indicator ∧ (s.requestAllocation).registration = s.registration ∧
    (s.requestAllocation).programs = s.programs ∧ (s.requestAllocation).tagCounter = s.tagCounter ∧
    (s.requestAllocation).unit = s.unit ∧ (s.requestAllocation).lamp = s.lamp ∧ (s.requestAllocation).cal = s.cal ∧
    (s.requestAllocation).calContext = s.calContext ∧ (s.requestAllocation).mergeQueue = s.mergeQueue ∧
    (s.requestAllocation).mergeContext = s.mergeContext ∧ (s.requestAllocation).freePages = s.freePages ∧
    (s.requestAllocation).directory = s.directory ∧ (s.requestAllocation).pages = s.pages ∧
    (s.requestAllocation).entries = s.entries ∧ (s.requestAllocation).ports = s.ports ∧
    (s.requestAllocation).settings = s.settings ∧ (s.requestAllocation).sent = s.sent ∧
    (s.requestAllocation).pending = s.pending := by
  unfold State.requestAllocation; (repeat' split) <;> simp

@[simp] theorem State.grantWaiting_rest (s : State) :
    (s.grantWaiting).plates = s.plates ∧ (s.grantWaiting).occupant = s.occupant ∧
    (s.grantWaiting).indicator = s.indicator ∧ (s.grantWaiting).registration = s.registration ∧
    (s.grantWaiting).tagCounter = s.tagCounter ∧ (s.grantWaiting).lamp = s.lamp ∧ (s.grantWaiting).cal = s.cal ∧
    (s.grantWaiting).calContext = s.calContext ∧ (s.grantWaiting).mergeQueue = s.mergeQueue ∧
    (s.grantWaiting).mergeContext = s.mergeContext ∧ (s.grantWaiting).pages = s.pages ∧
    (s.grantWaiting).entries = s.entries ∧ (s.grantWaiting).ports = s.ports ∧ (s.grantWaiting).settings = s.settings ∧
    (s.grantWaiting).pending = s.pending := by
  unfold State.grantWaiting; (repeat' split) <;> simp

@[simp] theorem State.tryAllocation_rest (s : State) :
    (s.tryAllocation).plates = s.plates ∧ (s.tryAllocation).occupant = s.occupant ∧
    (s.tryAllocation).indicator = s.indicator ∧ (s.tryAllocation).registration = s.registration ∧
    (s.tryAllocation).tagCounter = s.tagCounter ∧ (s.tryAllocation).lamp = s.lamp ∧ (s.tryAllocation).cal = s.cal ∧
    (s.tryAllocation).calContext = s.calContext ∧ (s.tryAllocation).mergeQueue = s.mergeQueue ∧
    (s.tryAllocation).mergeContext = s.mergeContext ∧ (s.tryAllocation).pages = s.pages ∧
    (s.tryAllocation).entries = s.entries ∧ (s.tryAllocation).ports = s.ports ∧
    (s.tryAllocation).settings = s.settings ∧ (s.tryAllocation).pending = s.pending := by
  simp [State.tryAllocation]

@[simp] theorem State.beginMerge_rest (s : State) (id : TileId) :
    (s.beginMerge id).plates = s.plates ∧ (s.beginMerge id).occupant = s.occupant ∧
    (s.beginMerge id).indicator = s.indicator ∧ (s.beginMerge id).registration = s.registration ∧
    (s.beginMerge id).programs = s.programs ∧ (s.beginMerge id).tagCounter = s.tagCounter ∧
    (s.beginMerge id).unit = s.unit ∧ (s.beginMerge id).lamp = s.lamp ∧ (s.beginMerge id).cal = s.cal ∧
    (s.beginMerge id).calContext = s.calContext ∧ (s.beginMerge id).mergeQueue = s.mergeQueue ∧
    (s.beginMerge id).freePages = s.freePages ∧ (s.beginMerge id).allocWaiting = s.allocWaiting ∧
    (s.beginMerge id).pages = s.pages ∧ (s.beginMerge id).entries = s.entries ∧ (s.beginMerge id).ports = s.ports ∧
    (s.beginMerge id).settings = s.settings ∧ (s.beginMerge id).sent = s.sent ∧
    (s.beginMerge id).pending = s.pending := by
  unfold State.beginMerge; (repeat' split) <;> simp

@[simp] theorem State.joinMerge_rest (s : State) (id : TileId) (d : Nat) :
    (s.joinMerge id d).plates = s.plates ∧ (s.joinMerge id d).occupant = s.occupant ∧
    (s.joinMerge id d).indicator = s.indicator ∧ (s.joinMerge id d).registration = s.registration ∧
    (s.joinMerge id d).programs = s.programs ∧ (s.joinMerge id d).tagCounter = s.tagCounter ∧
    (s.joinMerge id d).unit = s.unit ∧ (s.joinMerge id d).lamp = s.lamp ∧ (s.joinMerge id d).cal = s.cal ∧
    (s.joinMerge id d).calContext = s.calContext ∧ (s.joinMerge id d).freePages = s.freePages ∧
    (s.joinMerge id d).allocWaiting = s.allocWaiting ∧ (s.joinMerge id d).pages = s.pages ∧
    (s.joinMerge id d).entries = s.entries ∧ (s.joinMerge id d).ports = s.ports ∧
    (s.joinMerge id d).settings = s.settings ∧ (s.joinMerge id d).sent = s.sent ∧
    (s.joinMerge id d).pending = s.pending := by
  unfold State.joinMerge; split <;> simp

@[simp] theorem State.endCapture_rest (s : State) (tag : Nat) (k : Option Nat) :
    (s.endCapture tag k).registration = s.registration ∧ (s.endCapture tag k).tagCounter = s.tagCounter ∧
    (s.endCapture tag k).unit = s.unit ∧ (s.endCapture tag k).lamp = s.lamp ∧ (s.endCapture tag k).cal = s.cal ∧
    (s.endCapture tag k).calContext = s.calContext ∧ (s.endCapture tag k).mergeQueue = s.mergeQueue ∧
    (s.endCapture tag k).mergeContext = s.mergeContext ∧ (s.endCapture tag k).freePages = s.freePages ∧
    (s.endCapture tag k).allocWaiting = s.allocWaiting ∧ (s.endCapture tag k).pages = s.pages ∧
    (s.endCapture tag k).entries = s.entries ∧ (s.endCapture tag k).settings = s.settings ∧
    (s.endCapture tag k).sent = s.sent ∧ (s.endCapture tag k).pending = s.pending := by
  unfold State.endCapture; dsimp only; (repeat' split) <;> simp

@[simp] theorem State.fixOutcome_rest (s : State) (tag : Nat) (o : ProgramOutcome) :
    (s.fixOutcome tag o).plates = s.plates ∧ (s.fixOutcome tag o).occupant = s.occupant ∧
    (s.fixOutcome tag o).indicator = s.indicator ∧ (s.fixOutcome tag o).registration = s.registration ∧
    (s.fixOutcome tag o).tagCounter = s.tagCounter ∧ (s.fixOutcome tag o).unit = s.unit ∧
    (s.fixOutcome tag o).lamp = s.lamp ∧ (s.fixOutcome tag o).cal = s.cal ∧
    (s.fixOutcome tag o).calContext = s.calContext ∧ (s.fixOutcome tag o).mergeQueue = s.mergeQueue ∧
    (s.fixOutcome tag o).mergeContext = s.mergeContext ∧ (s.fixOutcome tag o).freePages = s.freePages ∧
    (s.fixOutcome tag o).directory = s.directory ∧ (s.fixOutcome tag o).allocWaiting = s.allocWaiting ∧
    (s.fixOutcome tag o).pages = s.pages ∧ (s.fixOutcome tag o).entries = s.entries ∧
    (s.fixOutcome tag o).ports = s.ports ∧ (s.fixOutcome tag o).settings = s.settings ∧
    (s.fixOutcome tag o).sent = s.sent ∧ (s.fixOutcome tag o).pending = s.pending := by
  simp [State.fixOutcome]

@[simp] theorem State.captured_rest (s : State) (id : TileId) (d : Nat) :
    (s.captured id d).registration = s.registration ∧ (s.captured id d).tagCounter = s.tagCounter ∧
    (s.captured id d).unit = s.unit ∧ (s.captured id d).lamp = s.lamp ∧ (s.captured id d).cal = s.cal ∧
    (s.captured id d).calContext = s.calContext ∧ (s.captured id d).freePages = s.freePages ∧
    (s.captured id d).allocWaiting = s.allocWaiting ∧ (s.captured id d).pages = s.pages ∧
    (s.captured id d).entries = s.entries ∧ (s.captured id d).settings = s.settings ∧
    (s.captured id d).sent = s.sent ∧ (s.captured id d).pending = s.pending := by
  unfold State.captured; dsimp only; (repeat' split) <;> simp

@[simp] theorem State.captureFailed_rest (s : State) (id : TileId) (o : ProgramOutcome) :
    (s.captureFailed id o).registration = s.registration ∧ (s.captureFailed id o).tagCounter = s.tagCounter ∧
    (s.captureFailed id o).unit = s.unit ∧ (s.captureFailed id o).lamp = s.lamp ∧ (s.captureFailed id o).cal = s.cal ∧
    (s.captureFailed id o).calContext = s.calContext ∧ (s.captureFailed id o).mergeQueue = s.mergeQueue ∧
    (s.captureFailed id o).mergeContext = s.mergeContext ∧ (s.captureFailed id o).allocWaiting = s.allocWaiting ∧
    (s.captureFailed id o).pages = s.pages ∧ (s.captureFailed id o).settings = s.settings ∧
    (s.captureFailed id o).sent = s.sent ∧ (s.captureFailed id o).pending = s.pending := by
  simp [State.captureFailed]

@[simp] theorem State.giveUpTile_rest (s : State) (g : Program) (b : Bool) :
    (s.giveUpTile g b).registration = s.registration ∧ (s.giveUpTile g b).tagCounter = s.tagCounter ∧
    (s.giveUpTile g b).cal = s.cal ∧ (s.giveUpTile g b).calContext = s.calContext ∧
    (s.giveUpTile g b).mergeQueue = s.mergeQueue ∧ (s.giveUpTile g b).mergeContext = s.mergeContext ∧
    (s.giveUpTile g b).pages = s.pages ∧ (s.giveUpTile g b).settings = s.settings ∧
    (s.giveUpTile g b).pending = s.pending := by
  unfold State.giveUpTile; dsimp only; (repeat' split) <;> simp

@[simp] theorem State.losePlate_rest (s : State) (i : Nat) :
    (s.losePlate i).registration = s.registration ∧ (s.losePlate i).tagCounter = s.tagCounter ∧
    (s.losePlate i).cal = s.cal ∧ (s.losePlate i).calContext = s.calContext ∧
    (s.losePlate i).mergeQueue = s.mergeQueue ∧ (s.losePlate i).mergeContext = s.mergeContext ∧
    (s.losePlate i).pages = s.pages ∧ (s.losePlate i).settings = s.settings ∧
    (s.losePlate i).pending = s.pending := by
  unfold State.losePlate; (repeat' split) <;> simp

@[simp] theorem State.callPlate_rest (s : State) (i tag : Nat) :
    (s.callPlate i tag).registration = s.registration ∧ (s.callPlate i tag).programs = s.programs ∧
    (s.callPlate i tag).tagCounter = s.tagCounter ∧ (s.callPlate i tag).unit = s.unit ∧
    (s.callPlate i tag).lamp = s.lamp ∧ (s.callPlate i tag).cal = s.cal ∧
    (s.callPlate i tag).calContext = s.calContext ∧ (s.callPlate i tag).mergeQueue = s.mergeQueue ∧
    (s.callPlate i tag).mergeContext = s.mergeContext ∧ (s.callPlate i tag).freePages = s.freePages ∧
    (s.callPlate i tag).directory = s.directory ∧ (s.callPlate i tag).allocWaiting = s.allocWaiting ∧
    (s.callPlate i tag).pages = s.pages ∧ (s.callPlate i tag).entries = s.entries ∧
    (s.callPlate i tag).settings = s.settings ∧ (s.callPlate i tag).sent = s.sent ∧
    (s.callPlate i tag).pending = s.pending := by
  simp [State.callPlate]

@[simp] theorem State.returnPlate_rest (s : State) (i w : Nat) :
    (s.returnPlate i w).registration = s.registration ∧ (s.returnPlate i w).programs = s.programs ∧
    (s.returnPlate i w).tagCounter = s.tagCounter ∧ (s.returnPlate i w).unit = s.unit ∧
    (s.returnPlate i w).lamp = s.lamp ∧ (s.returnPlate i w).cal = s.cal ∧
    (s.returnPlate i w).calContext = s.calContext ∧ (s.returnPlate i w).mergeQueue = s.mergeQueue ∧
    (s.returnPlate i w).mergeContext = s.mergeContext ∧ (s.returnPlate i w).freePages = s.freePages ∧
    (s.returnPlate i w).directory = s.directory ∧ (s.returnPlate i w).allocWaiting = s.allocWaiting ∧
    (s.returnPlate i w).pages = s.pages ∧ (s.returnPlate i w).entries = s.entries ∧
    (s.returnPlate i w).settings = s.settings ∧ (s.returnPlate i w).sent = s.sent ∧
    (s.returnPlate i w).pending = s.pending := by
  simp [State.returnPlate]

@[simp] theorem State.endAtStart_rest (s : State) (tag : Nat) (o : ProgramOutcome) (r : Option Nat) :
    (s.endAtStart tag o r).registration = s.registration ∧ (s.endAtStart tag o r).tagCounter = s.tagCounter ∧
    (s.endAtStart tag o r).unit = s.unit ∧ (s.endAtStart tag o r).lamp = s.lamp ∧ (s.endAtStart tag o r).cal = s.cal ∧
    (s.endAtStart tag o r).calContext = s.calContext ∧ (s.endAtStart tag o r).mergeQueue = s.mergeQueue ∧
    (s.endAtStart tag o r).mergeContext = s.mergeContext ∧ (s.endAtStart tag o r).freePages = s.freePages ∧
    (s.endAtStart tag o r).allocWaiting = s.allocWaiting ∧ (s.endAtStart tag o r).pages = s.pages ∧
    (s.endAtStart tag o r).entries = s.entries ∧ (s.endAtStart tag o r).settings = s.settings ∧
    (s.endAtStart tag o r).sent = s.sent ∧ (s.endAtStart tag o r).pending = s.pending := by
  simp [State.endAtStart]

@[simp] theorem State.beginProgram_rest (s : State) (g : Program) (pl : Plate) (e : Nat) :
    (s.beginProgram g pl e).registration = s.registration ∧ (s.beginProgram g pl e).tagCounter = s.tagCounter ∧
    (s.beginProgram g pl e).lamp = s.lamp ∧ (s.beginProgram g pl e).cal = s.cal ∧
    (s.beginProgram g pl e).calContext = s.calContext ∧ (s.beginProgram g pl e).mergeQueue = s.mergeQueue ∧
    (s.beginProgram g pl e).mergeContext = s.mergeContext ∧ (s.beginProgram g pl e).pages = s.pages ∧
    (s.beginProgram g pl e).entries = s.entries ∧ (s.beginProgram g pl e).ports = s.ports ∧
    (s.beginProgram g pl e).settings = s.settings ∧ (s.beginProgram g pl e).pending = s.pending := by
  simp [State.beginProgram]

@[simp] theorem State.startHead_rest (s : State) (g : Program) (pl : Plate) :
    ((s.startHead g pl).2).registration = s.registration ∧ ((s.startHead g pl).2).tagCounter = s.tagCounter ∧
    ((s.startHead g pl).2).lamp = s.lamp ∧ ((s.startHead g pl).2).cal = s.cal ∧
    ((s.startHead g pl).2).calContext = s.calContext ∧ ((s.startHead g pl).2).mergeQueue = s.mergeQueue ∧
    ((s.startHead g pl).2).mergeContext = s.mergeContext ∧ ((s.startHead g pl).2).pages = s.pages ∧
    ((s.startHead g pl).2).entries = s.entries ∧ ((s.startHead g pl).2).settings = s.settings ∧
    ((s.startHead g pl).2).pending = s.pending := by
  unfold State.startHead; (repeat' split) <;> simp

@[simp] theorem State.headWaits_rest (s : State) (tag : Nat) (st : ProgramState) :
    (s.headWaits tag st).plates = s.plates ∧ (s.headWaits tag st).occupant = s.occupant ∧
    (s.headWaits tag st).indicator = s.indicator ∧ (s.headWaits tag st).registration = s.registration ∧
    (s.headWaits tag st).tagCounter = s.tagCounter ∧ (s.headWaits tag st).unit = s.unit ∧
    (s.headWaits tag st).lamp = s.lamp ∧ (s.headWaits tag st).cal = s.cal ∧
    (s.headWaits tag st).calContext = s.calContext ∧ (s.headWaits tag st).mergeQueue = s.mergeQueue ∧
    (s.headWaits tag st).mergeContext = s.mergeContext ∧ (s.headWaits tag st).freePages = s.freePages ∧
    (s.headWaits tag st).directory = s.directory ∧ (s.headWaits tag st).allocWaiting = s.allocWaiting ∧
    (s.headWaits tag st).pages = s.pages ∧ (s.headWaits tag st).entries = s.entries ∧
    (s.headWaits tag st).ports = s.ports ∧ (s.headWaits tag st).settings = s.settings ∧
    (s.headWaits tag st).sent = s.sent ∧ (s.headWaits tag st).pending = s.pending := by
  simp [State.headWaits]

@[simp] theorem State.examineOffStage_rest (s : State) (g : Program) (pl : Plate) :
    (s.examineOffStage g pl).registration = s.registration ∧ (s.examineOffStage g pl).tagCounter = s.tagCounter ∧
    (s.examineOffStage g pl).unit = s.unit ∧ (s.examineOffStage g pl).lamp = s.lamp ∧
    (s.examineOffStage g pl).cal = s.cal ∧ (s.examineOffStage g pl).calContext = s.calContext ∧
    (s.examineOffStage g pl).mergeQueue = s.mergeQueue ∧ (s.examineOffStage g pl).mergeContext = s.mergeContext ∧
    (s.examineOffStage g pl).freePages = s.freePages ∧ (s.examineOffStage g pl).directory = s.directory ∧
    (s.examineOffStage g pl).allocWaiting = s.allocWaiting ∧ (s.examineOffStage g pl).pages = s.pages ∧
    (s.examineOffStage g pl).entries = s.entries ∧ (s.examineOffStage g pl).settings = s.settings ∧
    (s.examineOffStage g pl).sent = s.sent ∧ (s.examineOffStage g pl).pending = s.pending := by
  unfold State.examineOffStage; (repeat' split) <;> simp

@[simp] theorem State.examineUpTo_rest (s : State) (k : Nat) :
    (s.examineUpTo k).registration = s.registration ∧ (s.examineUpTo k).tagCounter = s.tagCounter ∧
    (s.examineUpTo k).lamp = s.lamp ∧ (s.examineUpTo k).cal = s.cal ∧ (s.examineUpTo k).calContext = s.calContext ∧
    (s.examineUpTo k).mergeQueue = s.mergeQueue ∧ (s.examineUpTo k).mergeContext = s.mergeContext ∧
    (s.examineUpTo k).pages = s.pages ∧ (s.examineUpTo k).entries = s.entries ∧
    (s.examineUpTo k).settings = s.settings ∧ (s.examineUpTo k).pending = s.pending := by
  induction k generalizing s with
  | zero => simp [State.examineUpTo]
  | succ k ih => unfold State.examineUpTo; dsimp only; (repeat' split) <;> simp [ih]

@[simp] theorem State.examine_rest (s : State) :
    (s.examine).registration = s.registration ∧ (s.examine).tagCounter = s.tagCounter ∧ (s.examine).lamp = s.lamp ∧
    (s.examine).cal = s.cal ∧ (s.examine).calContext = s.calContext ∧ (s.examine).mergeQueue = s.mergeQueue ∧
    (s.examine).mergeContext = s.mergeContext ∧ (s.examine).pages = s.pages ∧ (s.examine).entries = s.entries ∧
    (s.examine).settings = s.settings ∧ (s.examine).pending = s.pending := by
  simp [State.examine]

@[simp] theorem State.examineOnChange_rest (s0 s : State) :
    (s0.examineOnChange s).registration = s.registration ∧ (s0.examineOnChange s).tagCounter = s.tagCounter ∧
    (s0.examineOnChange s).lamp = s.lamp ∧ (s0.examineOnChange s).cal = s.cal ∧
    (s0.examineOnChange s).calContext = s.calContext ∧ (s0.examineOnChange s).mergeQueue = s.mergeQueue ∧
    (s0.examineOnChange s).mergeContext = s.mergeContext ∧ (s0.examineOnChange s).pages = s.pages ∧
    (s0.examineOnChange s).entries = s.entries ∧ (s0.examineOnChange s).settings = s.settings ∧
    (s0.examineOnChange s).pending = s.pending := by
  unfold State.examineOnChange; split <;> simp

@[simp] theorem State.sendRegDone_rest (s : State) (r : Registration) (pl : Plate) (o : RegOutcome) (f : Option Nat) (n : Nat) :
    (s.sendRegDone r pl o f n).plates = s.plates ∧ (s.sendRegDone r pl o f n).occupant = s.occupant ∧
    (s.sendRegDone r pl o f n).indicator = s.indicator ∧ (s.sendRegDone r pl o f n).registration = s.registration ∧
    (s.sendRegDone r pl o f n).programs = s.programs ∧ (s.sendRegDone r pl o f n).tagCounter = s.tagCounter ∧
    (s.sendRegDone r pl o f n).unit = s.unit ∧ (s.sendRegDone r pl o f n).lamp = s.lamp ∧
    (s.sendRegDone r pl o f n).cal = s.cal ∧ (s.sendRegDone r pl o f n).calContext = s.calContext ∧
    (s.sendRegDone r pl o f n).mergeQueue = s.mergeQueue ∧ (s.sendRegDone r pl o f n).mergeContext = s.mergeContext ∧
    (s.sendRegDone r pl o f n).freePages = s.freePages ∧ (s.sendRegDone r pl o f n).directory = s.directory ∧
    (s.sendRegDone r pl o f n).allocWaiting = s.allocWaiting ∧ (s.sendRegDone r pl o f n).pages = s.pages ∧
    (s.sendRegDone r pl o f n).entries = s.entries ∧ (s.sendRegDone r pl o f n).settings = s.settings ∧
    (s.sendRegDone r pl o f n).sent = s.sent ∧ (s.sendRegDone r pl o f n).pending = s.pending := by
  unfold State.sendRegDone; (repeat' split) <;> simp

@[simp] theorem State.endRegistration_rest (s : State) (r : Registration) (o : RegOutcome) (f : Option Nat) (n : Nat) :
    (s.endRegistration r o f n).programs = s.programs ∧ (s.endRegistration r o f n).tagCounter = s.tagCounter ∧
    (s.endRegistration r o f n).unit = s.unit ∧ (s.endRegistration r o f n).lamp = s.lamp ∧
    (s.endRegistration r o f n).cal = s.cal ∧ (s.endRegistration r o f n).calContext = s.calContext ∧
    (s.endRegistration r o f n).mergeQueue = s.mergeQueue ∧
    (s.endRegistration r o f n).mergeContext = s.mergeContext ∧ (s.endRegistration r o f n).freePages = s.freePages ∧
    (s.endRegistration r o f n).directory = s.directory ∧ (s.endRegistration r o f n).allocWaiting = s.allocWaiting ∧
    (s.endRegistration r o f n).pages = s.pages ∧ (s.endRegistration r o f n).entries = s.entries ∧
    (s.endRegistration r o f n).settings = s.settings ∧ (s.endRegistration r o f n).sent = s.sent ∧
    (s.endRegistration r o f n).pending = s.pending := by
  unfold State.endRegistration; split <;> simp

@[simp] theorem State.handMargin_rest (s : State) :
    (s.handMargin).plates = s.plates ∧ (s.handMargin).occupant = s.occupant ∧ (s.handMargin).indicator = s.indicator ∧
    (s.handMargin).programs = s.programs ∧ (s.handMargin).tagCounter = s.tagCounter ∧ (s.handMargin).lamp = s.lamp ∧
    (s.handMargin).cal = s.cal ∧ (s.handMargin).calContext = s.calContext ∧ (s.handMargin).mergeQueue = s.mergeQueue ∧
    (s.handMargin).mergeContext = s.mergeContext ∧ (s.handMargin).freePages = s.freePages ∧
    (s.handMargin).directory = s.directory ∧ (s.handMargin).allocWaiting = s.allocWaiting ∧
    (s.handMargin).pages = s.pages ∧ (s.handMargin).entries = s.entries ∧ (s.handMargin).ports = s.ports ∧
    (s.handMargin).settings = s.settings ∧ (s.handMargin).pending = s.pending := by
  unfold State.handMargin; (repeat' split) <;> simp

@[simp] theorem State.startRegistration_rest (s : State) (i : Nat) (q : Option Port) :
    (s.startRegistration i q).programs = s.programs ∧ (s.startRegistration i q).tagCounter = s.tagCounter ∧
    (s.startRegistration i q).lamp = s.lamp ∧ (s.startRegistration i q).cal = s.cal ∧
    (s.startRegistration i q).calContext = s.calContext ∧ (s.startRegistration i q).mergeQueue = s.mergeQueue ∧
    (s.startRegistration i q).mergeContext = s.mergeContext ∧ (s.startRegistration i q).freePages = s.freePages ∧
    (s.startRegistration i q).directory = s.directory ∧ (s.startRegistration i q).allocWaiting = s.allocWaiting ∧
    (s.startRegistration i q).pages = s.pages ∧ (s.startRegistration i q).entries = s.entries ∧
    (s.startRegistration i q).settings = s.settings ∧ (s.startRegistration i q).pending = s.pending := by
  unfold State.startRegistration; dsimp only; (repeat' split) <;> simp

@[simp] theorem State.abortRegistration_rest (s : State) (r : Registration) (pl : Plate) :
    (s.abortRegistration r pl).plates = s.plates ∧ (s.abortRegistration r pl).occupant = s.occupant ∧
    (s.abortRegistration r pl).indicator = s.indicator ∧ (s.abortRegistration r pl).programs = s.programs ∧
    (s.abortRegistration r pl).tagCounter = s.tagCounter ∧ (s.abortRegistration r pl).cal = s.cal ∧
    (s.abortRegistration r pl).calContext = s.calContext ∧ (s.abortRegistration r pl).mergeQueue = s.mergeQueue ∧
    (s.abortRegistration r pl).mergeContext = s.mergeContext ∧ (s.abortRegistration r pl).freePages = s.freePages ∧
    (s.abortRegistration r pl).directory = s.directory ∧ (s.abortRegistration r pl).allocWaiting = s.allocWaiting ∧
    (s.abortRegistration r pl).pages = s.pages ∧ (s.abortRegistration r pl).entries = s.entries ∧
    (s.abortRegistration r pl).settings = s.settings ∧ (s.abortRegistration r pl).pending = s.pending := by
  unfold State.abortRegistration; (repeat' split) <;> simp

@[simp] theorem State.offerUnit_rest (s : State) :
    (s.offerUnit).plates = s.plates ∧ (s.offerUnit).occupant = s.occupant ∧ (s.offerUnit).indicator = s.indicator ∧
    (s.offerUnit).tagCounter = s.tagCounter ∧ (s.offerUnit).lamp = s.lamp ∧ (s.offerUnit).cal = s.cal ∧
    (s.offerUnit).calContext = s.calContext ∧ (s.offerUnit).mergeQueue = s.mergeQueue ∧
    (s.offerUnit).mergeContext = s.mergeContext ∧ (s.offerUnit).freePages = s.freePages ∧
    (s.offerUnit).directory = s.directory ∧ (s.offerUnit).allocWaiting = s.allocWaiting ∧
    (s.offerUnit).pages = s.pages ∧ (s.offerUnit).entries = s.entries ∧ (s.offerUnit).ports = s.ports ∧
    (s.offerUnit).settings = s.settings ∧ (s.offerUnit).pending = s.pending := by
  simp [State.offerUnit]

@[simp] theorem State.settle_rest (s0 s : State) :
    (s0.settle s).tagCounter = s.tagCounter ∧ (s0.settle s).lamp = s.lamp ∧ (s0.settle s).cal = s.cal ∧
    (s0.settle s).calContext = s.calContext ∧ (s0.settle s).mergeQueue = s.mergeQueue ∧
    (s0.settle s).mergeContext = s.mergeContext ∧ (s0.settle s).pages = s.pages ∧ (s0.settle s).entries = s.entries ∧
    (s0.settle s).settings = s.settings ∧ (s0.settle s).pending = s.pending := by
  simp [State.settle]

@[simp] theorem State.serveFreed_rest (s0 s : State) (p : Port) :
    (s0.serveFreed s p).tagCounter = s.tagCounter ∧ (s0.serveFreed s p).lamp = s.lamp ∧
    (s0.serveFreed s p).cal = s.cal ∧ (s0.serveFreed s p).calContext = s.calContext ∧
    (s0.serveFreed s p).mergeQueue = s.mergeQueue ∧ (s0.serveFreed s p).mergeContext = s.mergeContext ∧
    (s0.serveFreed s p).pages = s.pages ∧ (s0.serveFreed s p).entries = s.entries ∧
    (s0.serveFreed s p).settings = s.settings ∧ (s0.serveFreed s p).pending = s.pending := by
  simp [State.serveFreed]

@[simp] theorem State.serveAlone_rest (s : State) (p : Port) (sel : Claim → Bool) :
    (s.serveAlone p sel).tagCounter = s.tagCounter ∧ (s.serveAlone p sel).lamp = s.lamp ∧
    (s.serveAlone p sel).cal = s.cal ∧ (s.serveAlone p sel).calContext = s.calContext ∧
    (s.serveAlone p sel).mergeQueue = s.mergeQueue ∧ (s.serveAlone p sel).mergeContext = s.mergeContext ∧
    (s.serveAlone p sel).pages = s.pages ∧ (s.serveAlone p sel).entries = s.entries ∧
    (s.serveAlone p sel).settings = s.settings ∧ (s.serveAlone p sel).pending = s.pending := by
  unfold State.serveAlone; (repeat' split) <;> simp

@[simp] theorem State.endCalibration_rest (s : State) (k : CalContext) (o : CalOutcome) (f : CalFigures) :
    (s.endCalibration k o f).plates = s.plates ∧ (s.endCalibration k o f).occupant = s.occupant ∧
    (s.endCalibration k o f).indicator = s.indicator ∧ (s.endCalibration k o f).registration = s.registration ∧
    (s.endCalibration k o f).programs = s.programs ∧ (s.endCalibration k o f).tagCounter = s.tagCounter ∧
    (s.endCalibration k o f).unit = s.unit ∧ (s.endCalibration k o f).lamp = s.lamp ∧
    (s.endCalibration k o f).cal = s.cal ∧ (s.endCalibration k o f).mergeQueue = s.mergeQueue ∧
    (s.endCalibration k o f).mergeContext = s.mergeContext ∧ (s.endCalibration k o f).freePages = s.freePages ∧
    (s.endCalibration k o f).directory = s.directory ∧ (s.endCalibration k o f).allocWaiting = s.allocWaiting ∧
    (s.endCalibration k o f).pages = s.pages ∧ (s.endCalibration k o f).entries = s.entries ∧
    (s.endCalibration k o f).settings = s.settings ∧ (s.endCalibration k o f).sent = s.sent ∧
    (s.endCalibration k o f).pending = s.pending := by
  simp [State.endCalibration]

@[simp] theorem State.startLight_rest (s : State) (k : CalContext) :
    (s.startLight k).plates = s.plates ∧ (s.startLight k).occupant = s.occupant ∧
    (s.startLight k).indicator = s.indicator ∧ (s.startLight k).registration = s.registration ∧
    (s.startLight k).programs = s.programs ∧ (s.startLight k).tagCounter = s.tagCounter ∧
    (s.startLight k).cal = s.cal ∧ (s.startLight k).mergeQueue = s.mergeQueue ∧
    (s.startLight k).mergeContext = s.mergeContext ∧ (s.startLight k).freePages = s.freePages ∧
    (s.startLight k).directory = s.directory ∧ (s.startLight k).allocWaiting = s.allocWaiting ∧
    (s.startLight k).pages = s.pages ∧ (s.startLight k).entries = s.entries ∧ (s.startLight k).ports = s.ports ∧
    (s.startLight k).settings = s.settings ∧ (s.startLight k).pending = s.pending := by
  simp [State.startLight]

@[simp] theorem State.darkFrameDone_rest (s : State) (k : CalContext) :
    (s.darkFrameDone k).plates = s.plates ∧ (s.darkFrameDone k).occupant = s.occupant ∧
    (s.darkFrameDone k).indicator = s.indicator ∧ (s.darkFrameDone k).registration = s.registration ∧
    (s.darkFrameDone k).programs = s.programs ∧ (s.darkFrameDone k).tagCounter = s.tagCounter ∧
    (s.darkFrameDone k).cal = s.cal ∧ (s.darkFrameDone k).mergeQueue = s.mergeQueue ∧
    (s.darkFrameDone k).mergeContext = s.mergeContext ∧ (s.darkFrameDone k).freePages = s.freePages ∧
    (s.darkFrameDone k).directory = s.directory ∧ (s.darkFrameDone k).allocWaiting = s.allocWaiting ∧
    (s.darkFrameDone k).pages = s.pages ∧ (s.darkFrameDone k).entries = s.entries ∧
    (s.darkFrameDone k).settings = s.settings ∧ (s.darkFrameDone k).pending = s.pending := by
  unfold State.darkFrameDone; split <;> simp

@[simp] theorem State.lightFrameDone_rest (s : State) (k : CalContext) :
    (s.lightFrameDone k).plates = s.plates ∧ (s.lightFrameDone k).occupant = s.occupant ∧
    (s.lightFrameDone k).indicator = s.indicator ∧ (s.lightFrameDone k).registration = s.registration ∧
    (s.lightFrameDone k).programs = s.programs ∧ (s.lightFrameDone k).tagCounter = s.tagCounter ∧
    (s.lightFrameDone k).unit = s.unit ∧ (s.lightFrameDone k).lamp = s.lamp ∧
    (s.lightFrameDone k).mergeQueue = s.mergeQueue ∧ (s.lightFrameDone k).mergeContext = s.mergeContext ∧
    (s.lightFrameDone k).freePages = s.freePages ∧ (s.lightFrameDone k).directory = s.directory ∧
    (s.lightFrameDone k).allocWaiting = s.allocWaiting ∧ (s.lightFrameDone k).pages = s.pages ∧
    (s.lightFrameDone k).entries = s.entries ∧ (s.lightFrameDone k).settings = s.settings ∧
    (s.lightFrameDone k).sent = s.sent ∧ (s.lightFrameDone k).pending = s.pending := by
  unfold State.lightFrameDone; (repeat' split) <;> simp

@[simp] theorem State.interruptCalibration_rest (s : State) :
    (s.interruptCalibration).plates = s.plates ∧ (s.interruptCalibration).occupant = s.occupant ∧
    (s.interruptCalibration).indicator = s.indicator ∧ (s.interruptCalibration).registration = s.registration ∧
    (s.interruptCalibration).programs = s.programs ∧ (s.interruptCalibration).tagCounter = s.tagCounter ∧
    (s.interruptCalibration).cal = s.cal ∧ (s.interruptCalibration).mergeQueue = s.mergeQueue ∧
    (s.interruptCalibration).mergeContext = s.mergeContext ∧ (s.interruptCalibration).freePages = s.freePages ∧
    (s.interruptCalibration).directory = s.directory ∧ (s.interruptCalibration).allocWaiting = s.allocWaiting ∧
    (s.interruptCalibration).pages = s.pages ∧ (s.interruptCalibration).entries = s.entries ∧
    (s.interruptCalibration).settings = s.settings ∧ (s.interruptCalibration).pending = s.pending := by
  unfold State.interruptCalibration; (repeat' split) <;> simp

@[simp] theorem State.marginEnds_rest (s : State) (o : RegOutcome) :
    (s.marginEnds o).programs = s.programs ∧ (s.marginEnds o).tagCounter = s.tagCounter ∧
    (s.marginEnds o).unit = s.unit ∧ (s.marginEnds o).lamp = s.lamp ∧ (s.marginEnds o).cal = s.cal ∧
    (s.marginEnds o).calContext = s.calContext ∧ (s.marginEnds o).mergeQueue = s.mergeQueue ∧
    (s.marginEnds o).mergeContext = s.mergeContext ∧ (s.marginEnds o).freePages = s.freePages ∧
    (s.marginEnds o).directory = s.directory ∧ (s.marginEnds o).allocWaiting = s.allocWaiting ∧
    (s.marginEnds o).pages = s.pages ∧ (s.marginEnds o).entries = s.entries ∧ (s.marginEnds o).settings = s.settings ∧
    (s.marginEnds o).sent = s.sent ∧ (s.marginEnds o).pending = s.pending := by
  unfold State.marginEnds; split <;> simp

@[simp] theorem State.calibrationFails_rest (s : State) (o : CalOutcome) :
    (s.calibrationFails o).plates = s.plates ∧ (s.calibrationFails o).occupant = s.occupant ∧
    (s.calibrationFails o).indicator = s.indicator ∧ (s.calibrationFails o).registration = s.registration ∧
    (s.calibrationFails o).programs = s.programs ∧ (s.calibrationFails o).tagCounter = s.tagCounter ∧
    (s.calibrationFails o).unit = s.unit ∧ (s.calibrationFails o).lamp = s.lamp ∧ (s.calibrationFails o).cal = s.cal ∧
    (s.calibrationFails o).mergeQueue = s.mergeQueue ∧ (s.calibrationFails o).mergeContext = s.mergeContext ∧
    (s.calibrationFails o).freePages = s.freePages ∧ (s.calibrationFails o).directory = s.directory ∧
    (s.calibrationFails o).allocWaiting = s.allocWaiting ∧ (s.calibrationFails o).pages = s.pages ∧
    (s.calibrationFails o).entries = s.entries ∧ (s.calibrationFails o).settings = s.settings ∧
    (s.calibrationFails o).sent = s.sent ∧ (s.calibrationFails o).pending = s.pending := by
  unfold State.calibrationFails; split <;> simp

@[simp] theorem State.moveFails_rest (s : State) (c : ExposureContext) :
    (s.moveFails c).tagCounter = s.tagCounter ∧ (s.moveFails c).cal = s.cal ∧
    (s.moveFails c).mergeQueue = s.mergeQueue ∧ (s.moveFails c).mergeContext = s.mergeContext ∧
    (s.moveFails c).allocWaiting = s.allocWaiting ∧ (s.moveFails c).pages = s.pages ∧
    (s.moveFails c).settings = s.settings ∧ (s.moveFails c).sent = s.sent ∧ (s.moveFails c).pending = s.pending := by
  unfold State.moveFails; split <;> simp

@[simp] theorem State.sensorFails_rest (s : State) (c : ExposureContext) :
    (s.sensorFails c).tagCounter = s.tagCounter ∧ (s.sensorFails c).cal = s.cal ∧
    (s.sensorFails c).mergeQueue = s.mergeQueue ∧ (s.sensorFails c).mergeContext = s.mergeContext ∧
    (s.sensorFails c).allocWaiting = s.allocWaiting ∧ (s.sensorFails c).pages = s.pages ∧
    (s.sensorFails c).settings = s.settings ∧ (s.sensorFails c).sent = s.sent ∧
    (s.sensorFails c).pending = s.pending := by
  unfold State.sensorFails; split <;> simp

@[simp] theorem State.regPhase_rest (s : State) (ph : RegPhase) :
    (s.regPhase ph).plates = s.plates ∧ (s.regPhase ph).occupant = s.occupant ∧
    (s.regPhase ph).indicator = s.indicator ∧ (s.regPhase ph).programs = s.programs ∧
    (s.regPhase ph).tagCounter = s.tagCounter ∧ (s.regPhase ph).unit = s.unit ∧ (s.regPhase ph).lamp = s.lamp ∧
    (s.regPhase ph).cal = s.cal ∧ (s.regPhase ph).calContext = s.calContext ∧
    (s.regPhase ph).mergeQueue = s.mergeQueue ∧ (s.regPhase ph).mergeContext = s.mergeContext ∧
    (s.regPhase ph).freePages = s.freePages ∧ (s.regPhase ph).directory = s.directory ∧
    (s.regPhase ph).allocWaiting = s.allocWaiting ∧ (s.regPhase ph).pages = s.pages ∧
    (s.regPhase ph).entries = s.entries ∧ (s.regPhase ph).ports = s.ports ∧ (s.regPhase ph).settings = s.settings ∧
    (s.regPhase ph).sent = s.sent ∧ (s.regPhase ph).pending = s.pending := by
  simp [State.regPhase]

@[simp] theorem State.countRetake_rest (s : State) :
    (s.countRetake).plates = s.plates ∧ (s.countRetake).occupant = s.occupant ∧
    (s.countRetake).indicator = s.indicator ∧ (s.countRetake).registration = s.registration ∧
    (s.countRetake).programs = s.programs ∧ (s.countRetake).tagCounter = s.tagCounter ∧
    (s.countRetake).lamp = s.lamp ∧ (s.countRetake).cal = s.cal ∧ (s.countRetake).calContext = s.calContext ∧
    (s.countRetake).mergeQueue = s.mergeQueue ∧ (s.countRetake).mergeContext = s.mergeContext ∧
    (s.countRetake).freePages = s.freePages ∧ (s.countRetake).directory = s.directory ∧
    (s.countRetake).allocWaiting = s.allocWaiting ∧ (s.countRetake).pages = s.pages ∧
    (s.countRetake).entries = s.entries ∧ (s.countRetake).ports = s.ports ∧ (s.countRetake).settings = s.settings ∧
    (s.countRetake).sent = s.sent ∧ (s.countRetake).pending = s.pending := by
  simp [State.countRetake]

@[simp] theorem State.countMarginRetake_rest (s : State) :
    (s.countMarginRetake).plates = s.plates ∧ (s.countMarginRetake).occupant = s.occupant ∧
    (s.countMarginRetake).indicator = s.indicator ∧ (s.countMarginRetake).programs = s.programs ∧
    (s.countMarginRetake).tagCounter = s.tagCounter ∧ (s.countMarginRetake).unit = s.unit ∧
    (s.countMarginRetake).lamp = s.lamp ∧ (s.countMarginRetake).cal = s.cal ∧
    (s.countMarginRetake).calContext = s.calContext ∧ (s.countMarginRetake).mergeQueue = s.mergeQueue ∧
    (s.countMarginRetake).mergeContext = s.mergeContext ∧ (s.countMarginRetake).freePages = s.freePages ∧
    (s.countMarginRetake).directory = s.directory ∧ (s.countMarginRetake).allocWaiting = s.allocWaiting ∧
    (s.countMarginRetake).pages = s.pages ∧ (s.countMarginRetake).entries = s.entries ∧
    (s.countMarginRetake).ports = s.ports ∧ (s.countMarginRetake).settings = s.settings ∧
    (s.countMarginRetake).sent = s.sent ∧ (s.countMarginRetake).pending = s.pending := by
  simp [State.countMarginRetake]

@[simp] theorem State.afterTileCharge_rest (s : State) (id : TileId) (c : Nat) (a : ChargeAnswer) :
    (s.afterTileCharge id c a).registration = s.registration ∧ (s.afterTileCharge id c a).tagCounter = s.tagCounter ∧
    (s.afterTileCharge id c a).cal = s.cal ∧ (s.afterTileCharge id c a).calContext = s.calContext ∧
    (s.afterTileCharge id c a).mergeQueue = s.mergeQueue ∧ (s.afterTileCharge id c a).mergeContext = s.mergeContext ∧
    (s.afterTileCharge id c a).allocWaiting = s.allocWaiting ∧ (s.afterTileCharge id c a).pages = s.pages ∧
    (s.afterTileCharge id c a).settings = s.settings ∧ (s.afterTileCharge id c a).pending = s.pending := by
  cases a <;> simp [State.afterTileCharge]

@[simp] theorem State.afterMarginCharge_rest (s : State) (a : ChargeAnswer) :
    (s.afterMarginCharge a).programs = s.programs ∧ (s.afterMarginCharge a).tagCounter = s.tagCounter ∧
    (s.afterMarginCharge a).cal = s.cal ∧ (s.afterMarginCharge a).calContext = s.calContext ∧
    (s.afterMarginCharge a).mergeQueue = s.mergeQueue ∧ (s.afterMarginCharge a).mergeContext = s.mergeContext ∧
    (s.afterMarginCharge a).freePages = s.freePages ∧ (s.afterMarginCharge a).directory = s.directory ∧
    (s.afterMarginCharge a).allocWaiting = s.allocWaiting ∧ (s.afterMarginCharge a).pages = s.pages ∧
    (s.afterMarginCharge a).entries = s.entries ∧ (s.afterMarginCharge a).settings = s.settings ∧
    (s.afterMarginCharge a).pending = s.pending := by
  cases a <;> simp [State.afterMarginCharge]

@[simp] theorem State.beginExposure_rest (s : State) :
    (s.beginExposure).tagCounter = s.tagCounter ∧ (s.beginExposure).cal = s.cal ∧
    (s.beginExposure).mergeQueue = s.mergeQueue ∧ (s.beginExposure).mergeContext = s.mergeContext ∧
    (s.beginExposure).allocWaiting = s.allocWaiting ∧ (s.beginExposure).pages = s.pages ∧
    (s.beginExposure).settings = s.settings ∧ (s.beginExposure).pending = s.pending := by
  unfold State.beginExposure; (repeat' split) <;> simp

@[simp] theorem State.retake_rest (s : State) (c : ExposureContext) (e : Exposure) :
    (s.retake c e).tagCounter = s.tagCounter ∧ (s.retake c e).cal = s.cal ∧ (s.retake c e).mergeQueue = s.mergeQueue ∧
    (s.retake c e).mergeContext = s.mergeContext ∧ (s.retake c e).allocWaiting = s.allocWaiting ∧
    (s.retake c e).pages = s.pages ∧ (s.retake c e).settings = s.settings ∧ (s.retake c e).pending = s.pending := by
  unfold State.retake; dsimp only; (repeat' split) <;> simp

@[simp] theorem State.takeFaulty_rest (s : State) :
    (s.takeFaulty).tagCounter = s.tagCounter ∧ (s.takeFaulty).cal = s.cal ∧ (s.takeFaulty).mergeQueue = s.mergeQueue ∧
    (s.takeFaulty).mergeContext = s.mergeContext ∧ (s.takeFaulty).allocWaiting = s.allocWaiting ∧
    (s.takeFaulty).pages = s.pages ∧ (s.takeFaulty).settings = s.settings ∧ (s.takeFaulty).pending = s.pending := by
  unfold State.takeFaulty; (repeat' split) <;> simp

@[simp] theorem State.storeLine_rest (s : State) (c : ExposureContext) (y : Nat) (v : List Sample) :
    (s.storeLine c y v).plates = s.plates ∧ (s.storeLine c y v).occupant = s.occupant ∧
    (s.storeLine c y v).indicator = s.indicator ∧ (s.storeLine c y v).programs = s.programs ∧
    (s.storeLine c y v).tagCounter = s.tagCounter ∧ (s.storeLine c y v).unit = s.unit ∧
    (s.storeLine c y v).lamp = s.lamp ∧ (s.storeLine c y v).cal = s.cal ∧
    (s.storeLine c y v).mergeQueue = s.mergeQueue ∧ (s.storeLine c y v).mergeContext = s.mergeContext ∧
    (s.storeLine c y v).freePages = s.freePages ∧ (s.storeLine c y v).directory = s.directory ∧
    (s.storeLine c y v).allocWaiting = s.allocWaiting ∧ (s.storeLine c y v).entries = s.entries ∧
    (s.storeLine c y v).ports = s.ports ∧ (s.storeLine c y v).settings = s.settings ∧
    (s.storeLine c y v).sent = s.sent ∧ (s.storeLine c y v).pending = s.pending := by
  unfold State.storeLine; (repeat' split) <;> simp

@[simp] theorem State.workDone_rest (s : State) (c : ExposureContext) :
    (s.workDone c).tagCounter = s.tagCounter ∧ (s.workDone c).freePages = s.freePages ∧
    (s.workDone c).allocWaiting = s.allocWaiting ∧ (s.workDone c).pages = s.pages ∧
    (s.workDone c).entries = s.entries ∧ (s.workDone c).settings = s.settings ∧
    (s.workDone c).pending = s.pending := by
  unfold State.workDone; (repeat' split) <;> simp

@[simp] theorem State.takeGood_rest (s : State) (c : ExposureContext) :
    (s.takeGood c).tagCounter = s.tagCounter ∧ (s.takeGood c).allocWaiting = s.allocWaiting ∧
    (s.takeGood c).pages = s.pages ∧ (s.takeGood c).settings = s.settings ∧ (s.takeGood c).pending = s.pending := by
  unfold State.takeGood; split <;> simp

@[simp] theorem State.takeLine_rest (s : State) (c : ExposureContext) (v : List Sample) :
    (s.takeLine c v).tagCounter = s.tagCounter ∧ (s.takeLine c v).allocWaiting = s.allocWaiting ∧
    (s.takeLine c v).settings = s.settings ∧ (s.takeLine c v).pending = s.pending := by
  unfold State.takeLine; (repeat' split) <;> simp

@[simp] theorem State.offerPreview_rest (s : State) (t : TileEntry) (y : Nat) (c : List (BitVec 16)) (p : Port) :
    (s.offerPreview t y c p).plates = s.plates ∧ (s.offerPreview t y c p).occupant = s.occupant ∧
    (s.offerPreview t y c p).indicator = s.indicator ∧ (s.offerPreview t y c p).registration = s.registration ∧
    (s.offerPreview t y c p).programs = s.programs ∧ (s.offerPreview t y c p).tagCounter = s.tagCounter ∧
    (s.offerPreview t y c p).unit = s.unit ∧ (s.offerPreview t y c p).lamp = s.lamp ∧
    (s.offerPreview t y c p).cal = s.cal ∧ (s.offerPreview t y c p).calContext = s.calContext ∧
    (s.offerPreview t y c p).mergeQueue = s.mergeQueue ∧ (s.offerPreview t y c p).mergeContext = s.mergeContext ∧
    (s.offerPreview t y c p).freePages = s.freePages ∧ (s.offerPreview t y c p).directory = s.directory ∧
    (s.offerPreview t y c p).allocWaiting = s.allocWaiting ∧ (s.offerPreview t y c p).pages = s.pages ∧
    (s.offerPreview t y c p).entries = s.entries ∧ (s.offerPreview t y c p).settings = s.settings ∧
    (s.offerPreview t y c p).sent = s.sent ∧ (s.offerPreview t y c p).pending = s.pending := by
  unfold State.offerPreview; split <;> simp

@[simp] theorem State.lineMerged_rest (s : State) (c : MergeContext) (p : CalParams) (t : TileEntry) :
    (s.lineMerged c p t).plates = s.plates ∧ (s.lineMerged c p t).occupant = s.occupant ∧
    (s.lineMerged c p t).indicator = s.indicator ∧ (s.lineMerged c p t).registration = s.registration ∧
    (s.lineMerged c p t).programs = s.programs ∧ (s.lineMerged c p t).tagCounter = s.tagCounter ∧
    (s.lineMerged c p t).unit = s.unit ∧ (s.lineMerged c p t).lamp = s.lamp ∧ (s.lineMerged c p t).cal = s.cal ∧
    (s.lineMerged c p t).calContext = s.calContext ∧ (s.lineMerged c p t).mergeQueue = s.mergeQueue ∧
    (s.lineMerged c p t).mergeContext = s.mergeContext ∧ (s.lineMerged c p t).freePages = s.freePages ∧
    (s.lineMerged c p t).allocWaiting = s.allocWaiting ∧ (s.lineMerged c p t).entries = s.entries ∧
    (s.lineMerged c p t).settings = s.settings ∧ (s.lineMerged c p t).sent = s.sent ∧
    (s.lineMerged c p t).pending = s.pending := by
  unfold State.lineMerged; split <;> simp

@[simp] theorem State.countCompleted_rest (s : State) (tag : Nat) :
    (s.countCompleted tag).plates = s.plates ∧ (s.countCompleted tag).occupant = s.occupant ∧
    (s.countCompleted tag).indicator = s.indicator ∧ (s.countCompleted tag).registration = s.registration ∧
    (s.countCompleted tag).tagCounter = s.tagCounter ∧ (s.countCompleted tag).unit = s.unit ∧
    (s.countCompleted tag).lamp = s.lamp ∧ (s.countCompleted tag).cal = s.cal ∧
    (s.countCompleted tag).calContext = s.calContext ∧ (s.countCompleted tag).mergeQueue = s.mergeQueue ∧
    (s.countCompleted tag).mergeContext = s.mergeContext ∧ (s.countCompleted tag).freePages = s.freePages ∧
    (s.countCompleted tag).allocWaiting = s.allocWaiting ∧ (s.countCompleted tag).pages = s.pages ∧
    (s.countCompleted tag).entries = s.entries ∧ (s.countCompleted tag).settings = s.settings ∧
    (s.countCompleted tag).sent = s.sent ∧ (s.countCompleted tag).pending = s.pending := by
  unfold State.countCompleted; dsimp only; (repeat' split) <;> simp

@[simp] theorem State.nextHead_rest (s : State) :
    (s.nextHead).plates = s.plates ∧ (s.nextHead).occupant = s.occupant ∧ (s.nextHead).indicator = s.indicator ∧
    (s.nextHead).registration = s.registration ∧ (s.nextHead).programs = s.programs ∧
    (s.nextHead).tagCounter = s.tagCounter ∧ (s.nextHead).unit = s.unit ∧ (s.nextHead).lamp = s.lamp ∧
    (s.nextHead).cal = s.cal ∧ (s.nextHead).calContext = s.calContext ∧ (s.nextHead).freePages = s.freePages ∧
    (s.nextHead).allocWaiting = s.allocWaiting ∧ (s.nextHead).pages = s.pages ∧ (s.nextHead).entries = s.entries ∧
    (s.nextHead).ports = s.ports ∧ (s.nextHead).settings = s.settings ∧ (s.nextHead).sent = s.sent ∧
    (s.nextHead).pending = s.pending := by
  unfold State.nextHead; split <;> simp

@[simp] theorem State.mergeCompleted_rest (s : State) (t : TileEntry) :
    (s.mergeCompleted t).plates = s.plates ∧ (s.mergeCompleted t).occupant = s.occupant ∧
    (s.mergeCompleted t).indicator = s.indicator ∧ (s.mergeCompleted t).registration = s.registration ∧
    (s.mergeCompleted t).tagCounter = s.tagCounter ∧ (s.mergeCompleted t).unit = s.unit ∧
    (s.mergeCompleted t).lamp = s.lamp ∧ (s.mergeCompleted t).cal = s.cal ∧
    (s.mergeCompleted t).calContext = s.calContext ∧ (s.mergeCompleted t).allocWaiting = s.allocWaiting ∧
    (s.mergeCompleted t).pages = s.pages ∧ (s.mergeCompleted t).settings = s.settings ∧
    (s.mergeCompleted t).sent = s.sent ∧ (s.mergeCompleted t).pending = s.pending := by
  unfold State.mergeCompleted; split <;> simp

end Sys2Proof.Machine
end

