-- ==== Sys2Proof/Laws/Specs.lean ====
section
/-! SUPPORT. What each shared operation does, said once: the taking of a message, the placing of an entry, the follow-up
of an event. -/

namespace Sys2Proof.Machine

/-! ### Taking a message -/

theorem State.take_of_waits {s : State} {p : Port} {m : Message} {rest : List Message} (h : Waits s p m rest) :
    s.fresh.take p = some (m, s.taken p rest) := by
  obtain ⟨h1, h2⟩ := h
  have e : s.fresh.port p = s.port p := by cases p <;> rfl
  simp [State.take, State.taken, e, h1, h2]

/-- The step of a request or post is its action on the state after the taking (09 R199). -/
theorem State.taking_of_asks {s : State} {p : Port} {m : Message} {rest : List Message} {r : Request}
    (h : Asks s p m rest r) (act : Message → Request → State → Option State) :
    s.taking p act = (act m r (s.taken p rest)).getD s.fresh := by
  obtain ⟨h1, h2⟩ := h
  rw [State.taking, State.take_of_waits h1]
  simp only [h2]
  cases act m r (s.taken p rest) <;> rfl

@[simp] theorem State.taken_rest (s : State) (p : Port) (rest : List Message) :
    (s.taken p rest).plates = s.plates ∧ (s.taken p rest).occupant = s.occupant ∧
    (s.taken p rest).indicator = s.indicator ∧ (s.taken p rest).registration = s.registration ∧
    (s.taken p rest).programs = s.programs ∧ (s.taken p rest).tagCounter = s.tagCounter ∧
    (s.taken p rest).unit = s.unit ∧ (s.taken p rest).lamp = s.lamp ∧ (s.taken p rest).cal = s.cal ∧
    (s.taken p rest).calContext = s.calContext ∧ (s.taken p rest).mergeQueue = s.mergeQueue ∧
    (s.taken p rest).mergeContext = s.mergeContext ∧ (s.taken p rest).freePages = s.freePages ∧
    (s.taken p rest).directory = s.directory ∧ (s.taken p rest).allocWaiting = s.allocWaiting ∧
    (s.taken p rest).pages = s.pages ∧ (s.taken p rest).entries = s.entries ∧
    (s.taken p rest).settings = s.settings ∧ (s.taken p rest).sent = [] ∧ (s.taken p rest).pending = s.pending := by
  simp [State.taken]

@[simp] theorem State.port_taken (s : State) (p : Port) (rest : List Message) :
    (s.taken p rest).port p = { s.port p with inbound := rest } := by
  simp [State.taken]

theorem State.port_taken_of_ne {p q : Port} (h : q ≠ p) (s : State) (rest : List Message) :
    (s.taken p rest).port q = s.port q := by
  rw [State.taken, State.port_setPort_of_ne]
  · cases q <;> rfl
  · exact h

@[simp] theorem State.plate_taken (s : State) (p : Port) (rest : List Message) (i : Nat) :
    (s.taken p rest).plate i = s.plate i := by simp [State.plate]

@[simp] theorem State.stagePlate_taken (s : State) (p : Port) (rest : List Message) :
    (s.taken p rest).stagePlate = s.stagePlate := by simp [State.stagePlate]

@[simp] theorem State.running_taken (s : State) (p : Port) (rest : List Message) :
    (s.taken p rest).running = s.running := by simp [State.running]

@[simp] theorem State.program?_taken (s : State) (p : Port) (rest : List Message) (tag : Nat) :
    (s.taken p rest).program? tag = s.program? tag := by simp [State.program?]

@[simp] theorem State.tile?_taken (s : State) (p : Port) (rest : List Message) (id : TileId) :
    (s.taken p rest).tile? id = s.tile? id := by simp [State.tile?]

@[simp] theorem State.ownEntry_taken (s : State) (p q : Port) (rest : List Message) (id : TileId) :
    (s.taken p rest).ownEntry q id = s.ownEntry q id := by simp [State.ownEntry]

@[simp] theorem State.otherEntry_taken (s : State) (p q : Port) (rest : List Message) (id : TileId) :
    (s.taken p rest).otherEntry q id = s.otherEntry q id := by simp [State.otherEntry]

@[simp] theorem State.port_fresh (s : State) (p : Port) : s.fresh.port p = s.port p := by cases p <;> rfl

@[simp] theorem State.tile?_fresh (s : State) (id : TileId) : s.fresh.tile? id = s.tile? id := rfl

@[simp] theorem State.plate_fresh (s : State) (i : Nat) : s.fresh.plate i = s.plate i := rfl

@[simp] theorem State.program?_fresh (s : State) (tag : Nat) : s.fresh.program? tag = s.program? tag := rfl

/-! ### The outbound list -/

theorem PortState.canTake_iff (q : PortState) : q.canTake = true ↔ q.link = .up ∧ q.outbound.length < 64 := by
  simp [PortState.canTake, PortState.hasFree]

theorem PortState.canTake_false_iff (q : PortState) : q.canTake = false ↔ q.link = .down ∨ 64 ≤ q.outbound.length := by
  cases h : q.link <;> simp [PortState.canTake, PortState.hasFree, h]

/-- Beginning the next message changes what is being sent and nothing else (09 R198, R202). -/
@[simp] theorem PortState.beginSending_rest (q : PortState) :
    q.beginSending.outbound = q.outbound ∧ q.beginSending.inbound = q.inbound ∧ q.beginSending.read = q.read ∧
    q.beginSending.link = q.link ∧ q.beginSending.retry = q.retry ∧ q.beginSending.upCount = q.upCount ∧
    q.beginSending.windowBase = q.windowBase ∧ q.beginSending.windowLimit = q.windowLimit ∧
    q.beginSending.previewFlag = q.previewFlag := by
  unfold PortState.beginSending; split <;> [split <;> [simp; (split <;> simp)]; simp]

/-- An entry pushed on a list stands at its tail (09 R202). -/
@[simp] theorem PortState.push_rest (q : PortState) (e : OutEntry) :
    (q.push e).outbound = q.outbound ++ [e] ∧ (q.push e).inbound = q.inbound ∧ (q.push e).read = q.read ∧
    (q.push e).link = q.link ∧ (q.push e).retry = q.retry ∧ (q.push e).upCount = q.upCount ∧
    (q.push e).windowBase = q.windowBase ∧ (q.push e).windowLimit = q.windowLimit ∧
    (q.push e).previewFlag = q.previewFlag := by
  simp [PortState.push]

/-- An entry offered to a list changes no part of the port but the list and what is being sent. -/
@[simp] theorem PortState.offer_rest (q : PortState) (e : OutEntry) :
    (q.offer e).inbound = q.inbound ∧ (q.offer e).read = q.read ∧ (q.offer e).link = q.link ∧
    (q.offer e).retry = q.retry ∧ (q.offer e).upCount = q.upCount ∧ (q.offer e).windowBase = q.windowBase ∧
    (q.offer e).windowLimit = q.windowLimit ∧ (q.offer e).previewFlag = q.previewFlag := by
  unfold PortState.offer; split <;> simp

theorem PortState.offer_outbound (q : PortState) (e : OutEntry) :
    (q.offer e).outbound = if q.canTake then q.outbound ++ [e] else q.outbound := by
  unfold PortState.offer; split <;> simp_all

/-- A list of at most 64 entries stays one when an entry is offered to it (09 R202). -/
theorem PortState.offer_length {q : PortState} (h : q.outbound.length ≤ 64) (e : OutEntry) :
    (q.offer e).outbound.length ≤ 64 := by
  rw [PortState.offer_outbound]
  split
  · rename_i hc; have := (q.canTake_iff.1 hc).2; simp; omega
  · exact h

theorem State.port_place_self (s : State) (p : Port) (e : OutEntry) : (s.place p e).port p = (s.port p).offer e := by
  simp [State.place]

theorem State.port_place_of_ne (s : State) {p q : Port} (e : OutEntry) (h : q ≠ p) : (s.place p e).port q = s.port q :=
  State.port_setPort_of_ne _ _ h

theorem OutEntry.map_modOpen_of_none (f : StreamEntry → StreamEntry) {l : List OutEntry}
    (h : ∀ e ∈ l, e.isOpenStream = false) : l.map (OutEntry.modOpen f) = l := by
  conv_rhs => rw [← List.map_id l]
  apply List.map_congr_left
  intro e he
  have := h e he
  cases e with
  | message _ => rfl
  | stream x => simp [OutEntry.isOpenStream] at this; simp [OutEntry.modOpen, this]

/-- A change of the open read's stream entry leaves the entries of no open read as they are. -/
theorem PortState.modStream_of_none (q : PortState) (f : StreamEntry → StreamEntry)
    (h : ∀ e ∈ q.outbound, e.isOpenStream = false) : q.modStream f = q := by
  simp [PortState.modStream, OutEntry.map_modOpen_of_none f h]

/-- The one stream entry of the open read is the one that changes. -/
theorem OutEntry.map_modOpen_of_split (f : StreamEntry → StreamEntry) {b a : List OutEntry} {x : StreamEntry}
    (hx : x.isOpen = true) (hb : ∀ e ∈ b, e.isOpenStream = false) (ha : ∀ e ∈ a, e.isOpenStream = false) :
    (b ++ .stream x :: a).map (OutEntry.modOpen f) = b ++ .stream (f x) :: a := by
  simp [OutEntry.map_modOpen_of_none f hb, OutEntry.map_modOpen_of_none f ha, OutEntry.modOpen, hx]

/-! ### Lists -/

/-- The first place where a test holds. -/
theorem findIdx?_first {α : Type} {l : List α} {q : α → Bool} {k : Nat} {d : α} (h1 : l[k]? = some d) (h2 : q d = true)
    (h3 : ∀ j x, j < k → l[j]? = some x → q x = false) : l.findIdx? q = some k := by
  rw [List.findIdx?_eq_some_iff_getElem]
  obtain ⟨hk, e⟩ := List.getElem?_eq_some_iff.1 h1
  refine ⟨hk, by rw [e]; exact h2, ?_⟩
  intro j hj
  have := h3 j l[j] hj (by simp)
  simp [this]

theorem State.program_tag {s : State} {tag : Nat} {g : Program} (h : s.program? tag = some g) : g.tag = tag := by
  have := List.find?_some h; simpa using this

theorem State.tile_id {s : State} {id : TileId} {t : TileEntry} (h : s.tile? id = some t) : t.id = id := by
  have := List.find?_some h; simpa using this

theorem PortSet.has_put (k : PortSet) (p q : Port) (b : Bool) : (k.put p b).has q = if q = p then b else k.has q := by
  cases p <;> cases q <;> rfl

/-! ### The accounts of a plate -/

theorem setRemaining_of_split {b a : List Reservation} {r : Reservation} {tag : Nat} (hr : r.tag = tag)
    (h : ∀ x ∈ b, x.tag ≠ tag) (amount : Nat) :
    setRemaining (b ++ r :: a) tag amount = b ++ { r with remaining := amount } :: a := by
  induction b with
  | nil => simp [setRemaining, hr]
  | cons x b ih =>
    have hx : x.tag ≠ tag := h x (by simp)
    simp only [List.cons_append, setRemaining, hx, if_false]
    rw [ih (fun y hy => h y (by simp [hy]))]

/-- Setting an entry changes the reserved total by the difference of its amounts. -/
theorem sum_setRemaining (l : List Reservation) (tag amount : Nat) :
    ((setRemaining l tag amount).map (·.remaining)).sum +
        (match l.find? (fun r => decide (r.tag = tag)) with | some r => r.remaining | none => 0) =
      (l.map (·.remaining)).sum + (if (l.find? (fun r => decide (r.tag = tag))).isSome then amount else 0) := by
  induction l with
  | nil => simp [setRemaining]
  | cons r l ih =>
    by_cases h : r.tag = tag
    · simp [setRemaining, h]; omega
    · simp only [setRemaining, h, if_false, List.map_cons, List.sum_cons, List.find?_cons, decide_false]
      omega

/-- A plate that was within its budget stays so at a reserve (01 R9, R10). -/
theorem Plate.reserve_withinBudget {pl pl' : Plate} {tag e : Nat} (hw : pl.withinBudget)
    (h : pl.reserve tag e = some pl') : pl'.withinBudget := by
  simp only [Plate.reserve] at h
  split at h <;> cases h
  rename_i hle
  simp only [Plate.withinBudget, Plate.reserved, Plate.remainder, List.map_append, List.sum_append, List.map_cons,
    List.map_nil, List.sum_cons, List.sum_nil] at *
  omega

/-- … and at a release (01 R9, R14). -/
theorem Plate.release_withinBudget {pl : Plate} (hw : pl.withinBudget) (tag : Nat) : (pl.release tag).2.withinBudget := by
  have : ∀ l : List Reservation,
      ((l.filter (fun r => decide (r.tag ≠ tag))).map (·.remaining)).sum ≤ (l.map (·.remaining)).sum := by
    intro l
    induction l with
    | nil => simp
    | cons r l ih => rw [List.filter_cons]; split <;> (simp_all; try omega)
  have := this pl.reservations
  simp only [Plate.withinBudget, Plate.reserved, Plate.release] at *
  omega

/-! ### The follow-up of an event -/

/-- A waiting tile is not handed over while the exposure unit is not IDLE (04 R80). -/
theorem State.handTile_busy {s : State} (h : s.unit.state ≠ .idle) : s.handTile = s := by
  unfold State.handTile
  split
  · split
    · rw [if_neg (fun hh => h hh.2)]
    · rfl
  · rfl

/-- … nor a waiting registration (04 R80). -/
theorem State.handMargin_busy {s : State} (h : s.unit.state ≠ .idle) : s.handMargin = s := by
  unfold State.handMargin
  split
  · rw [if_neg (fun hh => h hh.2)]
  · rfl

theorem State.offerUnit_busy {s : State} (h : s.unit.state ≠ .idle) : s.offerUnit = s := by
  rw [State.offerUnit, State.handTile_busy h, State.handMargin_busy h]

end Sys2Proof.Machine
end

