-- ==== Sys2Proof/Laws/Sizes.lean ====
section
/-! SUPPORT. The merge queue and the reservation lists: what a change of the state must leave for `MergeRoom` and
`ReservationsKept` to stand. -/

namespace Sys2Proof.Machine

/-- The part of a program record that the two invariants rest on. -/
abbrev sizeKey (g : Program) : Nat × ProgramState × Option CaptureStep × Nat :=
  (g.tag, g.state, g.captureStep, g.content.slot)

/-- The tags of a record's reservation list. -/
def resTags (r : Option Plate) : Option (List Nat) := r.map (fun pl => pl.reservations.map (·.tag))

theorem mem_key {α β : Type} {f : α → β} {l l' : List α} (h : l'.map f = l.map f) {x : α} (hx : x ∈ l') :
    ∃ y ∈ l, f y = f x := by
  have : f x ∈ l.map f := h ▸ List.mem_map_of_mem hx
  simpa using this

theorem resTags_some {r : Option Plate} {l : List Nat} (h : resTags r = some l) :
    ∃ pl, r = some pl ∧ pl.reservations.map (·.tag) = l := by
  simpa [resTags, Option.map_eq_some_iff] using h

/-- Reservation lists with the same tags or none, and programs with the same keys: the entries stay those of programs. -/
theorem ReservationsKept.of {s t : State} (h : ReservationsKept s)
    (hp : ∀ g ∈ s.programs, g.state.counted = true → (∃ g' ∈ t.programs, g'.tag = g.tag ∧ g'.content.slot = g.content.slot ∧
      g'.state.counted = true) ∨ ∀ i pl, t.plate i = some pl → ∀ r ∈ pl.reservations, r.tag ≠ g.tag)
    (hr : ∀ i pl, t.plate i = some pl → pl.reservations = [] ∨
      ∃ pl0, s.plate i = some pl0 ∧ (pl.reservations.map (·.tag)).Sublist (pl0.reservations.map (·.tag))) :
    ReservationsKept t := by
  intro i pl hpl
  rcases hr i pl hpl with e | ⟨pl0, h0, hsub⟩
  · rw [e]; exact ⟨by simp, by simp⟩
  · obtain ⟨hn, hg⟩ := h i pl0 h0
    refine ⟨hn.sublist hsub, ?_⟩
    intro r hrm
    have : r.tag ∈ pl0.reservations.map (·.tag) := hsub.subset (List.mem_map_of_mem hrm)
    rw [List.mem_map] at this
    obtain ⟨r0, hr0, e⟩ := this
    obtain ⟨g, hgm, a, b, c⟩ := hg r0 hr0
    rcases hp g hgm c with ⟨g', hg', a', b', c'⟩ | hno
    · exact ⟨g', hg', by rw [a', a, e], b'.trans b, c'⟩
    · exact absurd (e.symm.trans a.symm) (hno i pl hpl r hrm)

/-- Both: the merge queue has room, and the reservation lists are those of programs. -/
def Sizes (s : State) : Prop := MergeRoom s ∧ ReservationsKept s

theorem Sizes.same {s t : State} (hp : t.programs.map sizeKey = s.programs.map sizeKey) (hq : t.mergeQueue = s.mergeQueue)
    (ha : t.allocWaiting = s.allocWaiting) (hr : ∀ i, resTags (t.plate i) = resTags (s.plate i)) : Sizes s → Sizes t := by
  rintro ⟨h1, h2⟩
  refine ⟨⟨by rw [hq]; exact h1.queue, ?_, by rw [hq, ha]; exact h1.asked, ?_⟩, ?_⟩
  · have key : ∀ l : List Program, l.Pairwise (fun a b => b.captureStep ≠ none → a.state.counted = false) ↔
        (l.map sizeKey).Pairwise (fun a b => b.2.2.1 ≠ none → a.2.1.counted = false) := by
      intro l; rw [List.pairwise_map]
    rw [key, hp, ← key]; exact h1.order
  · intro g hg hc
    obtain ⟨g', hg', e⟩ := mem_key hp hg
    simp only [Prod.mk.injEq] at e
    rw [hq]; exact h1.coming g' hg' (by rw [e.2.2.1]; exact hc)
  · apply h2.of
    · intro g hg hc
      obtain ⟨g', hg', e⟩ := mem_key hp.symm hg
      simp only [Prod.mk.injEq] at e
      exact .inl ⟨g', hg', e.1, e.2.2.2, by rw [e.2.1]; exact hc⟩
    · intro i pl hpl
      have := hr i
      rw [hpl] at this
      obtain ⟨pl0, h0, e⟩ := resTags_some this.symm
      exact .inr ⟨pl0, h0, by rw [e]⟩

/-- A change of no program, no reservation, no request and of the merge queue alone, which does not grow. -/
theorem Sizes.shrink {s t : State} (hp : t.programs = s.programs) (hq : t.mergeQueue.length ≤ s.mergeQueue.length)
    (ha : t.allocWaiting = s.allocWaiting ∨ t.allocWaiting = none) (hr : t.plates = s.plates) : Sizes s → Sizes t := by
  rintro ⟨h1, h2⟩
  refine ⟨⟨hq.trans h1.queue, by rw [hp]; exact h1.order, ?_, ?_⟩, ?_⟩
  · intro h
    rcases ha with ha | ha
    · exact Nat.lt_of_le_of_lt hq (h1.asked (ha ▸ h))
    · exact absurd ha h
  · intro g hg hc; exact Nat.lt_of_le_of_lt hq (h1.coming g (hp ▸ hg) hc)
  · intro i pl hpl
    rw [State.plate_congr hr] at hpl
    obtain ⟨a, b⟩ := h2 i pl hpl
    exact ⟨a, by rw [hp]; exact b⟩

/-! ### Freed tags -/

/-- No plate holds a reservation under the tag. -/
def Freed (s : State) (tag : Nat) : Prop := ∀ i pl, s.plate i = some pl → ∀ r ∈ pl.reservations, r.tag ≠ tag

theorem Freed.of_tags {s t : State} {tag : Nat} (h : Freed s tag) (hr : ∀ i, resTags (t.plate i) = resTags (s.plate i)) :
    Freed t tag := by
  intro i pl hpl r hrm
  have := hr i
  rw [hpl] at this
  obtain ⟨pl0, h0, e⟩ := resTags_some this.symm
  have hm : r.tag ∈ pl0.reservations.map (·.tag) := by rw [e]; exact List.mem_map_of_mem hrm
  rw [List.mem_map] at hm
  obtain ⟨r0, hr0, e0⟩ := hm
  rw [← e0]; exact h i pl0 h0 r0 hr0

theorem Freed.of_plates {s t : State} {tag : Nat} (h : Freed s tag) (hr : t.plates = s.plates) : Freed t tag :=
  h.of_tags (fun i => by rw [State.plate_congr hr])

/-- A tag that no counted program has is freed. -/
theorem Sizes.freed {s : State} (h : Sizes s) {tag : Nat} (hg : ∀ g ∈ s.programs, g.tag = tag → g.state.counted = false) :
    Freed s tag := by
  intro i pl hpl r hr e
  obtain ⟨g, hgm, a, -, c⟩ := (h.2 i pl hpl).2 r hr
  rw [hg g hgm (a.trans e)] at c; cases c

/-- One program at most is in a capture step. -/
theorem Sizes.only {s : State} (h : Sizes s) (hrun : ∀ x ∈ s.programs, x.captureStep ≠ none → x.state.counted = true)
    {a b : Program} (ha : a ∈ s.programs) (hb : b ∈ s.programs) (ca : a.captureStep ≠ none) (cb : b.captureStep ≠ none) :
    a = b := by
  have hp : s.programs.Pairwise (fun a b => ¬ (a.captureStep ≠ none ∧ b.captureStep ≠ none)) := by
    refine h.1.order.imp_of_mem ?_
    rintro x y hx - o ⟨cx, cy⟩
    rw [hrun x hx cx] at o; exact absurd (o cy) (by simp)
  by_contra hne
  have : Std.Symm (fun a b : Program => ¬ (a.captureStep ≠ none ∧ b.captureStep ≠ none)) :=
    ⟨fun _ _ h => fun ⟨x, y⟩ => h ⟨y, x⟩⟩
  exact hp.forall ha hb hne ⟨ca, cb⟩

/-! ### Changes of a program record -/

theorem pairwise_head {l : List Program} (hn : (l.map (·.tag)).Nodup) {g : Program}
    (h : l.find? (fun g => g.state.counted) = some g) : l.Pairwise (fun a x => x = g → a.state.counted = false) := by
  induction l with
  | nil => exact .nil
  | cons y l ih =>
    rw [List.map_cons, List.nodup_cons] at hn
    rw [List.find?_cons] at h
    cases hy : y.state.counted
    · rw [hy] at h
      exact .cons (fun x _ _ => hy) (ih hn.2 h)
    · rw [hy] at h
      cases h
      have hno : ∀ x ∈ l, x ≠ g := by
        rintro x hx rfl; exact hn.1 (List.mem_map_of_mem hx)
      exact .cons (fun x hx e => absurd e (hno x hx)) ((List.pairwise_of_forall (R := fun _ _ => True)
        (fun _ _ => trivial)).imp_of_mem (fun _ hb _ e => absurd e (hno _ hb)))

/-- A change of the record of a program: it is counted no longer, or a reservation under its tag stands no more; it comes
into a capture step only as the head program, and its tile is on its way only where the merge queue has room. -/
theorem Sizes.modProgram {s : State} (h : Sizes s) (hn : (s.programs.map (·.tag)).Nodup) (tag : Nat)
    (f : Program → Program) (ht : ∀ g, (f g).tag = g.tag ∧ (f g).content = g.content)
    (hc : ∀ g ∈ s.programs, g.tag = tag → (f g).state.counted = true → g.state.counted = true)
    (hr : (∀ g ∈ s.programs, g.tag = tag → g.state.counted = true → (f g).state.counted = true) ∨ Freed s tag)
    (hs : ∀ g ∈ s.programs, g.tag = tag → (f g).captureStep ≠ none → g.captureStep ≠ none ∨ s.headProgram = some g)
    (hm : ∀ g ∈ s.programs, g.tag = tag → (f g).captureStep = some .unitWait ∨ (f g).captureStep = some .inUnit →
      s.mergeQueue.length < 4) : Sizes (s.modProgram tag f) := by
  obtain ⟨h1, h2⟩ := h
  have hh : s.programs.Pairwise (fun a x => s.headProgram = some x → a.state.counted = false) := by
    cases e : s.headProgram with
    | none => exact List.pairwise_of_forall (fun _ _ h => by cases h)
    | some g => exact (pairwise_head hn e).imp (fun h e => h (by cases e; rfl))
  refine ⟨⟨h1.queue, ?_, h1.asked, ?_⟩, ?_⟩
  · show (s.programs.map (fun g => if g.tag = tag then f g else g)).Pairwise _
    rw [List.pairwise_map]
    refine List.Pairwise.imp_of_mem ?_ (h1.order.and hh)
    intro a b ha hb ⟨o, hd⟩ hstep
    have hco : (if a.tag = tag then f a else a).state.counted = true → a.state.counted = true := by
      split
      · rename_i e; exact hc a ha e
      · exact id
    have : a.state.counted = false := by
      by_cases e : b.tag = tag
      · rw [if_pos e] at hstep
        rcases hs b hb e hstep with x | x
        · exact o x
        · exact hd x
      · rw [if_neg e] at hstep; exact o hstep
    cases hx : (if a.tag = tag then f a else a).state.counted
    · rfl
    · rw [hco hx] at this; cases this
  · intro g' hg' hstep
    simp only [State.modProgram, List.mem_map] at hg'
    obtain ⟨g, hg, e⟩ := hg'
    by_cases hgt : g.tag = tag
    · rw [if_pos hgt] at e; subst e; exact hm g hg hgt hstep
    · rw [if_neg hgt] at e; subst e; exact h1.coming g hg hstep
  · apply h2.of
    · intro g hg hcg
      have hmem : (if g.tag = tag then f g else g) ∈ (s.modProgram tag f).programs :=
        List.mem_map_of_mem (f := fun g => if g.tag = tag then f g else g) hg
      by_cases hgt : g.tag = tag
      · rw [if_pos hgt] at hmem
        rcases hr with hr | hr
        · exact .inl ⟨f g, hmem, (ht g).1, by rw [(ht g).2], hr g hg hgt hcg⟩
        · right; intro i pl hpl r hrm; rw [hgt]; exact hr i pl (by simpa using hpl) r hrm
      · rw [if_neg hgt] at hmem
        exact .inl ⟨g, hmem, rfl, rfl, hcg⟩
    · intro i pl hpl; exact .inr ⟨pl, by simpa using hpl, List.Sublist.refl _⟩

/-- Programs without a reservation leave the queue. -/
theorem Sizes.dropProgram {s : State} (h : Sizes s) {tag : Nat} (hf : Freed s tag) :
    Sizes { s with programs := s.programs.filter (fun g => decide (g.tag ≠ tag)) } := by
  obtain ⟨h1, h2⟩ := h
  refine ⟨⟨h1.queue, h1.order.sublist List.filter_sublist, h1.asked, ?_⟩, ?_⟩
  · intro g hg; exact h1.coming g (List.mem_of_mem_filter hg)
  · apply h2.of
    · intro g hg hc
      by_cases e : g.tag = tag
      · right; rw [e]; exact hf
      · exact .inl ⟨g, by rw [List.mem_filter]; exact ⟨hg, by simpa using e⟩, rfl, rfl, hc⟩
    · intro i pl hpl; exact .inr ⟨pl, hpl, List.Sublist.refl _⟩

/-! ### Changes of a plate's record -/

/-- A record takes the place of another: it holds no reservation, or those of the record before it. -/
theorem Sizes.setPlate {s : State} (h : Sizes s) (i : Nat) (r : Option Plate)
    (hr : ∀ pl, r = some pl → pl.reservations = [] ∨
      ∃ pl0, s.plate i = some pl0 ∧ (pl.reservations.map (·.tag)).Sublist (pl0.reservations.map (·.tag))) :
    Sizes (s.setPlate i r) := by
  obtain ⟨h1, h2⟩ := h
  refine ⟨⟨by simpa using h1.queue, by simpa using h1.order, by simpa using h1.asked, by simpa using h1.coming⟩, ?_⟩
  apply h2.of
  · intro g hg hc; exact .inl ⟨g, by simpa using hg, rfl, rfl, hc⟩
  · intro j pl hpl
    rw [State.plate_setPlate] at hpl
    split at hpl
    · rename_i e; rw [← e.1]; exact hr pl hpl
    · exact .inr ⟨pl, hpl, List.Sublist.refl _⟩

end Sys2Proof.Machine
end

