-- ==== Sys2Proof/Laws/Stage.lean ====
section
/-! SUPPORT. What keeps the stage in order: the relation `KeepsStage` between the state before an operation and the state
after it, and the operations that are in it. -/

namespace Sys2Proof.Machine

/-! ### What an operation keeps -/

/-- The stage occupant and the indicator are those of the plate records, at most one plate is on the stage, and the plate
of a registration in flight is REGISTERING. -/
def StageAgrees (s : State) : Prop := StageTrue s ∧ OneOnStage s

/-- The operation leads from a stage in order to a stage in order. -/
def KeepsStage (s t : State) : Prop := StageAgrees s → StageAgrees t

theorem KeepsStage.refl (s : State) : KeepsStage s s := id
theorem KeepsStage.trans {s t u : State} (h1 : KeepsStage s t) (h2 : KeepsStage t u) : KeepsStage s u := fun h => h2 (h1 h)

/-- An operation that leaves the plate records alone and keeps the slot of the registration, or ends it. -/
theorem KeepsStage.of_plates {s t : State} (hp : t.plates = s.plates) (ho : t.occupant = s.occupant)
    (hi : t.indicator = s.indicator)
    (hr : ∀ r, t.registration = some r → ∃ r', s.registration = some r' ∧ r'.slot = r.slot) : KeepsStage s t := by
  have e : ∀ i, t.plate i = s.plate i := fun i => by unfold State.plate; rw [hp]
  rintro ⟨h1, h2, h3⟩
  refine ⟨⟨by rw [ho, hp]; exact h1.1, by rw [hi, hp]; exact h1.2⟩, ?_, ?_⟩
  · intro i j a b ha hb; rw [e] at ha hb; exact h2 i j a b ha hb
  · intro r hr'
    obtain ⟨r', h, hs⟩ := hr r hr'
    obtain ⟨pl, hpl, hst⟩ := h3 r' h
    exact ⟨pl, by rw [e, ← hs]; exact hpl, hst⟩

theorem KeepsStage.same {s t : State} (hp : t.plates = s.plates) (ho : t.occupant = s.occupant)
    (hi : t.indicator = s.indicator) (hr : t.registration = s.registration) : KeepsStage s t :=
  KeepsStage.of_plates hp ho hi (fun r h => ⟨r, hr ▸ h, rfl⟩)

theorem KeepsStage.clearRegistration (s : State) : KeepsStage s { s with registration := none } :=
  KeepsStage.of_plates rfl rfl rfl (fun r hr => by cases hr)

/-- A plate record is replaced: it is on the stage only where it was or where no plate is, and the plate of a registration
stays REGISTERING. -/
theorem StageAgrees.setPlate {s : State} (h : StageAgrees s) (i : Nat) (r : Option Plate)
    (hA : ∀ a, r = some a → a.state.onStage = true →
      (∃ b, s.plate i = some b ∧ b.state.onStage = true) ∨ (∀ j b, s.plate j = some b → b.state.onStage = false))
    (hB : ∀ reg, s.registration = some reg → reg.slot = i → ∃ a, r = some a ∧ a.state = .registering) :
    StageAgrees (s.setPlate i r) := by
  obtain ⟨-, h2, h3⟩ := h
  have key : ∀ j a, (s.setPlate i r).plate j = some a → a.state.onStage = true →
      (∃ b, s.plate j = some b ∧ b.state.onStage = true) ∨ (j = i ∧ ∀ j b, s.plate j = some b → b.state.onStage = false) := by
    intro j a ha hs
    rw [State.plate_setPlate] at ha
    by_cases e : i = j ∧ j < 32
    · rw [if_pos e] at ha
      rcases hA a ha hs with h | h
      · exact .inl (e.1 ▸ h)
      · exact .inr ⟨e.1.symm, h⟩
    · rw [if_neg e] at ha; exact .inl ⟨a, ha, hs⟩
  refine ⟨⟨rfl, rfl⟩, ?_, ?_⟩
  · intro j k a b ha hb has hbs
    rcases key j a ha has with ⟨a', ha', hs'⟩ | ⟨e1, hn⟩
    · rcases key k b hb hbs with ⟨b', hb', hs''⟩ | ⟨e2, hn⟩
      · exact h2 j k a' b' ha' hb' hs' hs''
      · have := hn j a' ha'; rw [hs'] at this; cases this
    · rcases key k b hb hbs with ⟨b', hb', hs''⟩ | ⟨e2, _⟩
      · have := hn k b' hb'; rw [hs''] at this; cases this
      · rw [e1, e2]
  · intro reg hreg
    have hreg : s.registration = some reg := hreg
    obtain ⟨pl, hpl, hst⟩ := h3 reg hreg
    by_cases e : reg.slot = i
    · obtain ⟨a, ha, hs⟩ := hB reg hreg e
      refine ⟨a, ?_, hs⟩
      rw [State.plate_setPlate, if_pos ⟨e.symm, State.lt_of_plate hpl⟩]; exact ha
    · refine ⟨pl, ?_, hst⟩
      rw [State.plate_setPlate, if_neg (fun x => e x.1.symm)]; exact hpl

/-- A change of a plate record that keeps its state. -/
theorem KeepsStage.setPlate_state {s : State} {i : Nat} {pl pl' : Plate} (hp : s.plate i = some pl)
    (hs : pl'.state = pl.state) : KeepsStage s (s.setPlate i (some pl')) := by
  intro h
  apply h.setPlate
  · intro a ha has; cases ha; exact .inl ⟨pl, hp, hs ▸ has⟩
  · intro reg hreg e
    obtain ⟨q, hq, hst⟩ := h.2.2 reg hreg
    rw [e, hp] at hq; cases hq
    exact ⟨pl', rfl, hs.trans hst⟩

theorem KeepsStage.modPlate_state (s : State) (i : Nat) (f : Plate → Plate) (hf : ∀ pl, (f pl).state = pl.state) :
    KeepsStage s (s.modPlate i f) := by
  unfold State.modPlate; split
  · rename_i pl hp; exact KeepsStage.setPlate_state hp (hf pl)
  · exact KeepsStage.refl _

/-- A plate that is on the stage and not REGISTERING takes another stage state. -/
theorem KeepsStage.setPlate_on {s : State} {i : Nat} {pl pl' : Plate} (hp : s.plate i = some pl)
    (hs : pl'.state.onStage = true → pl.state.onStage = true) (hr : pl.state ≠ .registering) :
    KeepsStage s (s.setPlate i (some pl')) := by
  intro h
  apply h.setPlate
  · intro a ha has; cases ha; exact .inl ⟨pl, hp, hs has⟩
  · intro reg hreg e
    obtain ⟨q, hq, hst⟩ := h.2.2 reg hreg
    rw [e, hp] at hq; cases hq; exact absurd hst hr

/-- The occupant is on the stage. -/
theorem StageTrue.onStage {s : State} (h : StageTrue s) {i : Nat} (ho : s.occupant = some i) {pl : Plate}
    (hp : s.plate i = some pl) : pl.state.onStage = true := by
  rw [h.1] at ho
  unfold stageSlot at ho
  rw [List.findIdx?_eq_some_iff_getElem] at ho
  obtain ⟨hi, h1, -⟩ := ho
  have hi' : i < 32 := by simpa using hi
  have : s.plates[i]? = some s.plates[i] := Vector.getElem?_eq_getElem hi'
  unfold State.plate at hp
  rw [this] at hp
  have hp : s.plates[i] = some pl := hp
  rw [Vector.getElem_toList, hp] at h1
  exact h1

/-- Where the stage has no occupant, no plate is on it. -/
theorem StageTrue.empty {s : State} (h : StageTrue s) (ho : s.occupant = none) (j : Nat) (b : Plate) (hb : s.plate j = some b) :
    b.state.onStage = false := by
  rw [h.1] at ho
  unfold stageSlot at ho
  rw [List.findIdx?_eq_none_iff] at ho
  have hj := State.lt_of_plate hb
  have : s.plates[j]? = some s.plates[j] := Vector.getElem?_eq_getElem hj
  unfold State.plate at hb
  rw [this] at hb
  have hb : s.plates[j] = some b := hb
  have := ho (some b) (by rw [← hb]; exact List.getElem_mem (by simpa using hj) (l := s.plates.toList))
  exact this

/-! ### Plates, notices and accounts -/

variable (s : State)

theorem KeepsStage.issueNotice (i : Nat) (n : PendingNotice) : KeepsStage s (s.issueNotice i n) := by
  unfold State.issueNotice; split
  · exact KeepsStage.refl _
  · split
    · apply KeepsStage.same <;> simp
    · exact KeepsStage.modPlate_state _ _ _ (fun _ => rfl)

theorem KeepsStage.issuePending (i : Nat) : KeepsStage s (s.issuePending i) := by
  unfold State.issuePending; split
  · exact KeepsStage.refl _
  · split
    · exact KeepsStage.refl _
    · refine (KeepsStage.modPlate_state s i (fun pl => { pl with noticePending := none }) (fun _ => rfl)).trans ?_
      apply KeepsStage.same <;> simp

theorem KeepsStage.withdrawCall (i : Nat) : KeepsStage s (s.withdrawCall i) := by
  unfold State.withdrawCall; split
  · exact KeepsStage.refl _
  · rename_i pl hp
    split
    · rename_i h
      have h1 : KeepsStage s (s.setPlate i (some { pl with state := .racked, noticePending := none })) :=
        KeepsStage.setPlate_on hp (by intro e; cases e) (by rw [h.1]; simp)
      dsimp only
      split
      · exact h1
      · refine h1.trans ?_; apply KeepsStage.same <;> simp
    · exact KeepsStage.refl _

theorem KeepsStage.charge (i : Nat) (f : Plate → ChargeAnswer × Plate) (hf : ∀ pl, (f pl).2.state = pl.state) :
    KeepsStage s (s.charge i f).2 := by
  unfold State.charge; split
  · exact KeepsStage.refl _
  · rename_i pl hp
    split
    · rename_i pl' e
      apply KeepsStage.setPlate_state hp
      have := hf pl; rw [e] at this; exact this
    · exact KeepsStage.refl _

theorem programCharge_state (pl : Plate) (tag cost : Nat) : (pl.programCharge tag cost).2.state = pl.state := by
  unfold Plate.programCharge; repeat' split
  all_goals rfl

theorem unreservedCharge_state (pl : Plate) (st : PlateState) (cost : Nat) : (pl.unreservedCharge st cost).2.state = pl.state := by
  unfold Plate.unreservedCharge; repeat' split
  all_goals rfl

theorem KeepsStage.chargeTile (tag cost : Nat) (b : Bool) : KeepsStage s (s.chargeTile tag cost b).2 := by
  unfold State.chargeTile; split
  · exact KeepsStage.refl _
  · split
    · exact KeepsStage.refl _
    · rename_i g _ _
      have := KeepsStage.charge s g.content.slot (fun pl => if b then pl.unreservedCharge .staged cost else pl.programCharge tag cost)
        (by intro pl; cases b
            · exact programCharge_state _ _ _
            · exact unreservedCharge_state _ _ _)
      split
      · rename_i s' e; rw [e] at this
        refine this.trans ?_; apply KeepsStage.same <;> rfl
      · exact this

theorem KeepsStage.chargeMargin (cost : Nat) : KeepsStage s (s.chargeMargin cost).2 := by
  unfold State.chargeMargin; split
  · exact KeepsStage.refl _
  · rename_i r hr
    have := KeepsStage.charge s r.slot (fun pl => pl.unreservedCharge .registering cost) (fun _ => unreservedCharge_state _ _ _)
    have hreg := (State.charge_rest s r.slot (fun pl => pl.unreservedCharge .registering cost)).1
    split
    · rename_i s' e
      rw [e] at this hreg
      refine this.trans (KeepsStage.of_plates rfl rfl rfl ?_)
      intro r' hr'; cases hr'
      exact ⟨r, by rw [← hr]; exact hreg, rfl⟩
    · exact this

theorem KeepsStage.releaseProgram (tag : Nat) : KeepsStage s (s.releaseProgram tag) := by
  unfold State.releaseProgram; split
  · exact KeepsStage.refl _
  · split
    · apply KeepsStage.same <;> rfl
    · rename_i pl hp
      refine (KeepsStage.setPlate_state hp (by rfl : (pl.release tag).2.state = pl.state)).trans ?_
      apply KeepsStage.same <;> rfl

theorem KeepsStage.endCapture (tag : Nat) (k : Option Nat) : KeepsStage s (s.endCapture tag k) := by
  unfold State.endCapture
  dsimp only
  have h1 : KeepsStage s ((s.releaseProgram tag).modProgram tag (fun g => { g with captureStep := none, failingTile := k })) := by
    refine (KeepsStage.releaseProgram s tag).trans ?_
    apply KeepsStage.same <;> rfl
  split
  · exact h1
  · split
    · refine h1.trans ?_; apply KeepsStage.same <;> rfl
    · refine h1.trans ?_; apply KeepsStage.same <;> simp

theorem KeepsStage.captured (id : TileId) (d : Nat) : KeepsStage s (s.captured id d) := by
  unfold State.captured
  dsimp only
  have h1 : KeepsStage s ((s.joinMerge id d).modProgram id.tag (fun g =>
      { g with tilesInMerge := g.tilesInMerge + 1, nextTile := id.index + 1 })) := by apply KeepsStage.same <;> simp
  split
  · exact h1
  · split
    · exact h1.trans (KeepsStage.endCapture _ _ _)
    · split
      · refine h1.trans ?_; apply KeepsStage.same <;> simp
      · refine KeepsStage.trans (h1.trans ?_) (KeepsStage.endCapture _ _ _); apply KeepsStage.same <;> simp

theorem KeepsStage.captureFailed (id : TileId) (o : ProgramOutcome) : KeepsStage s (s.captureFailed id o) := by
  refine KeepsStage.trans ?_ (KeepsStage.endCapture _ _ _)
  apply KeepsStage.same <;> simp

theorem KeepsStage.giveUpTile (g : Program) (b : Bool) : KeepsStage s (s.giveUpTile g b) := by
  unfold State.giveUpTile
  dsimp only
  split
  · refine KeepsStage.trans ?_ (KeepsStage.endCapture _ _ _); apply KeepsStage.same <;> simp
  · refine KeepsStage.trans ?_ (KeepsStage.endCapture _ _ _); apply KeepsStage.same <;> simp
  · split
    · exact KeepsStage.refl _
    · refine KeepsStage.trans ?_ (KeepsStage.endCapture _ _ _)
      split <;> (apply KeepsStage.same <;> simp)
  · exact KeepsStage.refl _

theorem KeepsStage.losePlate (i : Nat) : KeepsStage s (s.losePlate i) := by
  unfold State.losePlate; split
  · exact KeepsStage.refl _
  · split
    · refine KeepsStage.trans ?_ (KeepsStage.giveUpTile _ _ _); apply KeepsStage.same <;> simp
    · exact KeepsStage.refl _

/-! ### The staging unit -/

theorem KeepsStage.callPlate {i : Nat} {pl : Plate} (hp : s.plate i = some pl) (hr : pl.state = .racked) (tag : Nat) :
    KeepsStage s (s.callPlate i tag) := by
  unfold State.callPlate
  refine KeepsStage.trans ?_ (KeepsStage.issueNotice _ _ _)
  unfold State.modPlate; rw [hp]
  exact KeepsStage.setPlate_on hp (by intro e; cases e) (by rw [hr]; simp)

theorem KeepsStage.returnPlate {i : Nat} {pl : Plate} (hp : s.plate i = some pl) (hs : s.occupant = some i)
    (hh : pl.returnable = true) (w : Nat) : KeepsStage s (s.returnPlate i w) := by
  unfold State.returnPlate
  refine KeepsStage.trans ?_ (KeepsStage.issueNotice _ _ _)
  unfold State.modPlate; rw [hp]
  intro h
  have hon := h.1.onStage hs hp
  refine KeepsStage.setPlate_on hp (fun _ => hon) ?_ h
  intro e
  simp [Plate.returnable, Plate.hasHold, e, PlateState.onStage] at hh

theorem KeepsStage.endAtStart (tag : Nat) (o : ProgramOutcome) (k : Option Nat) : KeepsStage s (s.endAtStart tag o k) := by
  unfold State.endAtStart
  refine KeepsStage.trans (t := (s.modProgram tag (fun g =>
    { g with outcome := some o, refusedTile := k, generation := some s.cal.generation })).releaseProgram tag) ?_ ?_
  · refine KeepsStage.trans ?_ (KeepsStage.releaseProgram _ _); apply KeepsStage.same <;> rfl
  · apply KeepsStage.same <;> simp

theorem KeepsStage.startHead (g : Program) (pl : Plate) (hp : s.plate g.content.slot = some pl) :
    KeepsStage s (s.startHead g pl).2 := by
  unfold State.startHead
  split
  · exact KeepsStage.endAtStart _ _ _ _
  · split
    · exact KeepsStage.endAtStart _ _ _ _
    · split
      · exact KeepsStage.endAtStart _ _ _ _
      · split
        · exact KeepsStage.endAtStart _ _ _ _
        · rename_i pl' e
          have hst : pl'.state = pl.state := by
            unfold Plate.reestimate at e; split at e
            · cases e; rfl
            · cases e
          unfold State.beginProgram
          refine (KeepsStage.setPlate_state hp hst).trans ?_
          apply KeepsStage.same <;> simp

theorem KeepsStage.examineOffStage (g : Program) (pl : Plate) (hp : s.plate g.content.slot = some pl) :
    KeepsStage s (s.examineOffStage g pl) := by
  unfold State.examineOffStage
  split
  · refine KeepsStage.trans (t := if pl.state = .racked then s.callPlate g.content.slot g.tag else s) ?_ ?_
    · split
      · exact KeepsStage.callPlate s hp ‹_› _
      · exact KeepsStage.refl _
    · apply KeepsStage.same <;> simp
  · rename_i i o hio
    refine KeepsStage.trans (t := if o.returnable then s.returnPlate i g.content.slot else s) ?_ ?_
    · split
      · unfold State.stagePlate at hio
        split at hio
        · rename_i j hj
          rw [Option.map_eq_some_iff] at hio
          obtain ⟨q, hq, e⟩ := hio
          cases e
          exact KeepsStage.returnPlate s hq hj ‹_› _
        · cases hio
      · exact KeepsStage.refl _
    · apply KeepsStage.same <;> simp

theorem KeepsStage.examineUpTo (k : Nat) : KeepsStage s (s.examineUpTo k) := by
  induction k generalizing s with
  | zero => exact KeepsStage.refl _
  | succ k ih =>
    have hw : ∀ tag st, KeepsStage s (s.headWaits tag st) := by intro _ _; apply KeepsStage.same <;> simp
    unfold State.examineUpTo
    split
    · exact KeepsStage.refl _
    · split
      · exact KeepsStage.refl _
      · split
        · exact KeepsStage.refl _
        · rename_i g _ _ _ pl hp
          split
          · dsimp only; split
            · exact (KeepsStage.startHead s g pl hp).trans (ih _)
            · exact KeepsStage.startHead s g pl hp
          · exact hw _ _
          · exact hw _ _
          · exact hw _ _
          · exact KeepsStage.examineOffStage s g pl hp
          · exact KeepsStage.examineOffStage s g pl hp

theorem KeepsStage.examineOnChange (s0 : State) : KeepsStage s (s0.examineOnChange s) := by
  unfold State.examineOnChange; split
  · exact KeepsStage.refl _
  · exact KeepsStage.examineUpTo _ _

theorem KeepsStage.handMargin : KeepsStage s s.handMargin := by
  unfold State.handMargin; split
  · rename_i r c hr hc
    split
    · apply KeepsStage.of_plates <;> simp
      exact ⟨r, hr, rfl⟩
    · exact KeepsStage.refl _
  · exact KeepsStage.refl _

theorem KeepsStage.offerUnit : KeepsStage s s.offerUnit := by
  refine KeepsStage.trans ?_ (KeepsStage.handMargin _); apply KeepsStage.same <;> simp

theorem KeepsStage.settle (s0 : State) : KeepsStage s (s0.settle s) := by
  refine KeepsStage.trans (KeepsStage.trans (KeepsStage.examineOnChange s s0) ?_) (KeepsStage.offerUnit _)
  apply KeepsStage.same <;> simp

/-- A registration ends whose plate is on the stage. -/
theorem StageAgrees.endRegistration {s : State} (h : StageAgrees s) (r : Registration) (o : RegOutcome) (f : Option Nat) (n : Nat)
    (hr : ∀ pl, s.plate r.slot = some pl → pl.state.onStage = true) : StageAgrees (s.endRegistration r o f n) := by
  have h0 : StageAgrees { s with registration := none } := KeepsStage.clearRegistration s h
  unfold State.endRegistration; split
  · exact h0
  · rename_i pl hp
    refine KeepsStage.same (s := { s with registration := none }.setPlate r.slot
      (some { pl with state := .staged, marginResult := marginResultOf o, baseFog := f })) (by simp) (by simp) (by simp) (by simp) ?_
    apply h0.setPlate
    · intro a ha _; exact .inl ⟨pl, hp, hr pl hp⟩
    · intro reg hreg; cases hreg

theorem KeepsStage.endCurrent {r : Registration} (hr : s.registration = some r) (o : RegOutcome) (f : Option Nat) (n : Nat) :
    KeepsStage s (s.endRegistration r o f n) := by
  intro h
  apply h.endRegistration
  intro pl hp
  obtain ⟨q, hq, hs⟩ := h.2.2 r hr
  rw [hp] at hq; cases hq; rw [hs]; rfl

theorem KeepsStage.marginEnds (o : RegOutcome) : KeepsStage s (s.marginEnds o) := by
  unfold State.marginEnds; split
  · exact KeepsStage.endCurrent _ ‹_› _ _ _
  · exact KeepsStage.refl _

/-- A registration starts for a plate that has become REGISTERING. -/
theorem KeepsStage.startRegistration {i : Nat} {pl : Plate} (hp : s.plate i = some pl) (hs : pl.state = .registering)
    (q : Option Port) : KeepsStage s (s.startRegistration i q) := by
  have hend : ∀ (t c : Nat) o f n, KeepsStage s (s.endRegistration (newRegistration s i q t c) o f n) := by
    intro t c o f n h
    apply h.endRegistration
    intro pl' hp'
    have hp' : s.plate i = some pl' := hp'
    rw [hp] at hp'; cases hp'; rw [hs]; rfl
  unfold State.startRegistration; split
  · exact hend _ _ _ _ _
  · dsimp only; split
    · refine KeepsStage.trans ?_ (KeepsStage.handMargin _)
      intro h
      refine ⟨h.1, h.2.1, ?_⟩
      intro r hr; cases hr
      exact ⟨pl, hp, hs⟩
    · exact hend _ _ _ _ _

/-- The plate leaves the stage, and a registration in flight for it is aborted. -/
theorem KeepsStage.removePlate (i : Nat) (pl : Plate) :
    KeepsStage s ((s.setPlate i (some pl.removed)).abortFor i pl.removed) := by
  intro h
  have hoff : ∀ a, some pl.removed = some a → a.state.onStage = true → False := by
    intro a ha hs; cases ha; cases hs
  unfold State.abortFor
  by_cases hreg : ∃ r, s.registration = some r ∧ r.slot = i
  · obtain ⟨r, hr, hri⟩ := hreg
    rw [show (s.setPlate i (some pl.removed)).registration = some r from hr]
    dsimp only
    rw [if_pos hri]
    -- the registration ends first: then no registration asks for the plate
    have h0 : StageAgrees { s with registration := none } := KeepsStage.clearRegistration s h
    have h1 : StageAgrees ({ s with registration := none }.setPlate i (some pl.removed)) :=
      h0.setPlate i _ (fun a ha hs => absurd hs (fun e => hoff a ha e)) (fun reg hreg => by cases hreg)
    refine KeepsStage.same ?_ ?_ ?_ ?_ h1
    all_goals
      unfold State.abortRegistration
      dsimp only
      split
      all_goals first | (split <;> simp) | simp
  · have h1 : StageAgrees (s.setPlate i (some pl.removed)) := by
      apply h.setPlate
      · intro a ha hs; exact (hoff a ha hs).elim
      · intro reg hr e; exact absurd ⟨reg, hr, e⟩ hreg
    split
    · rename_i r hr
      rw [if_neg (fun e => hreg ⟨r, hr, e⟩)]; exact h1
    · exact h1

/-! ### Claims -/

theorem KeepsStage.serveClaim (p : Port) (c : Claim) : KeepsStage s (s.serveClaim p c) := by
  unfold State.serveClaim; split
  · exact KeepsStage.issuePending _ _
  all_goals (apply KeepsStage.same <;> simp)

theorem KeepsStage.serveUpTo (p : Port) (k : Nat) : KeepsStage s (s.serveUpTo p k) := by
  induction k generalizing s with
  | zero => exact KeepsStage.refl _
  | succ k ih =>
    unfold State.serveUpTo; repeat' split
    · exact (KeepsStage.serveClaim _ _ _).trans (ih _)
    · exact KeepsStage.refl _
    · exact KeepsStage.refl _

theorem KeepsStage.serveFreed (s0 : State) (p : Port) : KeepsStage s (s0.serveFreed s p) := by
  refine KeepsStage.trans (KeepsStage.trans (KeepsStage.serveUpTo s p 64) ?_) (KeepsStage.settle _ _)
  apply KeepsStage.same <;> simp [State.serveClaims]

theorem KeepsStage.serveAlone (p : Port) (sel : Claim → Bool) : KeepsStage s (s.serveAlone p sel) := by
  unfold State.serveAlone; repeat' split
  · exact (KeepsStage.serveClaim _ _ _).trans (KeepsStage.settle _ _)
  all_goals exact KeepsStage.refl _

/-! ### The exposure unit's reports -/

theorem KeepsStage.moveFails (c : ExposureContext) : KeepsStage s (s.moveFails c) := by
  have h : KeepsStage s s.unitIdle := by apply KeepsStage.same <;> simp
  unfold State.moveFails; split
  · exact h.trans (KeepsStage.captureFailed _ _ _)
  · exact h.trans (KeepsStage.marginEnds _ _)
  all_goals (apply KeepsStage.same <;> simp)

theorem KeepsStage.sensorFails (c : ExposureContext) : KeepsStage s (s.sensorFails c) := by
  have h : KeepsStage s s.unitIdle := by apply KeepsStage.same <;> simp
  unfold State.sensorFails; split
  · exact h.trans (KeepsStage.captureFailed _ _ _)
  · exact h.trans (KeepsStage.marginEnds _ _)
  all_goals (apply KeepsStage.same <;> simp)

theorem KeepsStage.modRegistration (f : Registration → Registration) (hf : ∀ r, (f r).slot = r.slot) :
    KeepsStage s { s with registration := s.registration.map f } := by
  apply KeepsStage.of_plates <;> try rfl
  intro r hr
  simp only [Option.map_eq_some_iff] at hr
  obtain ⟨r0, h0, rfl⟩ := hr
  exact ⟨r0, h0, (hf r0).symm⟩

theorem KeepsStage.afterTileCharge (id : TileId) (cost : Nat) (a : ChargeAnswer) : KeepsStage s (s.afterTileCharge id cost a) := by
  have h : KeepsStage s s.unitIdle := by apply KeepsStage.same <;> simp
  cases a
  · apply KeepsStage.same <;> simp [State.afterTileCharge]
  · exact h.trans (KeepsStage.captureFailed _ _ _)
  · exact h.trans (KeepsStage.captureFailed _ _ _)

theorem KeepsStage.afterMarginCharge (a : ChargeAnswer) : KeepsStage s (s.afterMarginCharge a) := by
  have h : KeepsStage s s.unitIdle := by apply KeepsStage.same <;> simp
  cases a
  · refine (KeepsStage.modRegistration s (fun r => { r with phase := .exposing }) (fun _ => rfl)).trans ?_
    apply KeepsStage.same <;> simp [State.afterMarginCharge, State.regPhase]
  · exact h.trans (KeepsStage.marginEnds _ _)
  · exact h

theorem KeepsStage.beginExposure : KeepsStage s s.beginExposure := by
  unfold State.beginExposure
  split
  · exact KeepsStage.refl _
  · split
    · exact KeepsStage.refl _
    · split
      · exact (KeepsStage.chargeTile _ _ _ _).trans (KeepsStage.afterTileCharge _ _ _ _)
      · exact (KeepsStage.chargeMargin _ _).trans (KeepsStage.afterMarginCharge _ _)
      all_goals (apply KeepsStage.same <;> simp)

theorem KeepsStage.countRetake : KeepsStage s s.countRetake := by apply KeepsStage.same <;> simp

theorem KeepsStage.retake (c : ExposureContext) (e : Exposure) : KeepsStage s (s.retake c e) := by
  unfold State.retake; split
  · rename_i id _
    dsimp only
    refine KeepsStage.trans (KeepsStage.trans (KeepsStage.chargeTile s id.tag e.cost true) ?_) (KeepsStage.afterTileCharge _ _ _ _)
    split
    · exact KeepsStage.countRetake _
    · exact KeepsStage.refl _
  · dsimp only
    refine KeepsStage.trans (KeepsStage.trans (KeepsStage.chargeMargin s e.cost) ?_) (KeepsStage.afterMarginCharge _ _)
    split
    · exact (KeepsStage.countRetake _).trans (KeepsStage.modRegistration _ _ (fun _ => rfl))
    · exact KeepsStage.refl _
  all_goals (apply KeepsStage.same <;> simp)

theorem KeepsStage.takeFaulty : KeepsStage s s.takeFaulty := by
  unfold State.takeFaulty; repeat' split
  · exact KeepsStage.refl _
  · apply KeepsStage.same <;> simp
  · exact KeepsStage.retake _ _ _
  · exact KeepsStage.refl _
  · exact KeepsStage.sensorFails _ _

theorem KeepsStage.storeLine (c : ExposureContext) (y : Nat) (v : List Sample) : KeepsStage s (s.storeLine c y v) := by
  unfold State.storeLine; repeat' split
  · apply KeepsStage.same <;> rfl
  · exact KeepsStage.refl _
  · exact KeepsStage.modRegistration _ _ (fun _ => rfl)
  all_goals (apply KeepsStage.same <;> rfl)

theorem KeepsStage.workDone (c : ExposureContext) : KeepsStage s (s.workDone c) := by
  have h : KeepsStage s s.unitIdle := by apply KeepsStage.same <;> simp
  unfold State.workDone; repeat' split
  · exact h.trans (KeepsStage.captured _ _ _)
  · exact h.trans (KeepsStage.modRegistration _ _ (fun _ => rfl))
  all_goals (apply KeepsStage.same <;> simp)

theorem KeepsStage.takeGood (c : ExposureContext) : KeepsStage s (s.takeGood c) := by
  unfold State.takeGood; split
  · refine KeepsStage.trans ?_ (KeepsStage.beginExposure _); apply KeepsStage.same <;> simp
  · exact KeepsStage.workDone _ _

theorem KeepsStage.takeLine (c : ExposureContext) (v : List Sample) : KeepsStage s (s.takeLine c v) := by
  unfold State.takeLine
  dsimp only
  have h1 : KeepsStage s (if c.disposal then s else s.storeLine c c.nextLine v) := by
    split
    · exact KeepsStage.refl _
    · exact KeepsStage.storeLine _ _ _ _
  generalize (if c.disposal then s else s.storeLine c c.nextLine v) = u at *
  have h2 : KeepsStage u { u with unit := { u.unit with context := some { c with nextLine := c.nextLine + 1 }, timer := .line 100 } } := by
    apply KeepsStage.same <;> rfl
  repeat' split
  · refine (h1.trans h2).trans ?_; apply KeepsStage.same <;> simp
  · exact (h1.trans h2).trans (KeepsStage.takeGood _ _)
  · exact h1.trans h2

end Sys2Proof.Machine
end

