-- ==== Sys2Proof/Laws/StageRequests.lean ====
section
/-! SUPPORT. The requests and posts of a port, and small operations, keep the stage in order (`KeepsStage`). -/

namespace Sys2Proof.Machine
variable (s : State)

theorem KeepsStage.reply (p : Port) (m : Message) (st : Status) (b : Body) : KeepsStage s (s.reply p m st b) := by apply KeepsStage.same <;> simp
theorem KeepsStage.place (p : Port) (b : OutEntry) : KeepsStage s (s.place p b) := by apply KeepsStage.same <;> simp
theorem KeepsStage.fresh : KeepsStage s s.fresh := by apply KeepsStage.same <;> simp
theorem KeepsStage.setPort (p : Port) (b : PortState) : KeepsStage s (s.setPort p b) := by apply KeepsStage.same <;> simp
theorem KeepsStage.emit (e : Emission) : KeepsStage s (s.emit e) := by apply KeepsStage.same <;> simp

theorem KeepsStage.taking (p : Port) (act : Message → Request → State → Option State)
    (h : ∀ m r s1 s2, act m r s1 = some s2 → KeepsStage s1 s2) :
    KeepsStage s (s.taking p act) := by
  unfold State.taking
  split
  · exact KeepsStage.fresh _
  · rename_i m s1 h1
    split
    · rename_i r hr
      split
      · rename_i s2 h2
        have e : KeepsStage s s1 := by
          unfold State.take at h1
          split at h1
          · split at h1
            · cases h1
              exact (KeepsStage.fresh s).trans (KeepsStage.setPort _ _ _)
            · cases h1
          · cases h1
        exact e.trans (h m r s1 s2 h2)
      · exact KeepsStage.fresh _
    · exact KeepsStage.fresh _

theorem KeepsStage.plateEnter (p : Port) (m : Message) (f : EnterFields) : KeepsStage s (s.plateEnter p m f) := by
  unfold State.plateEnter State.badField
  split
  · exact KeepsStage.reply _ _ _ _ _
  · rename_i i hi
    have hnone : s.plate i = none := by
      unfold State.freeSlot at hi
      rw [List.findIdx?_eq_some_iff_getElem] at hi
      obtain ⟨h, h1, -⟩ := hi
      unfold State.plate
      have h' : i < 32 := by simpa using h
      rw [Vector.getElem?_eq_getElem h']
      simpa using h1
    have hset : ∀ pl : Plate, pl.state = .racked → KeepsStage s (s.setPlate i (some pl)) := by
      intro pl hpl h
      apply h.setPlate
      · intro a ha hs; cases ha; rw [hpl] at hs; cases hs
      · intro reg hreg e
        obtain ⟨q, hq, _⟩ := h.2.2 reg hreg
        rw [e, hnone] at hq; cases hq
    repeat' split
    all_goals first | exact KeepsStage.reply _ _ _ _ _ | exact (hset _ rfl).trans (KeepsStage.reply _ _ _ _ _)

theorem KeepsStage.finishProgram (tag : Nat) : KeepsStage s (s.finishProgram tag) := by apply KeepsStage.same <;> simp
theorem KeepsStage.readPlate (p : Port) (m : Message) (i : Nat) : KeepsStage s (s.readPlate p m i) := by
  unfold State.readPlate State.busyPlain
  repeat' split
  all_goals exact KeepsStage.reply _ _ _ _ _
theorem KeepsStage.annotate (p : Port) (m : Message) (i : Nat) (n : List Byte) : KeepsStage s (s.annotate p m i n) := by
  unfold State.annotate
  split
  · exact KeepsStage.place _ _ _
  · rename_i hp
    exact KeepsStage.setPlate_state hp rfl
theorem KeepsStage.raiseBudget (p : Port) (m : Message) (i n : Nat) : KeepsStage s (s.raiseBudget p m i n) := by
  unfold State.raiseBudget State.badField
  split
  · exact KeepsStage.reply _ _ _ _ _
  · rename_i hp
    repeat' split
    all_goals first | exact KeepsStage.reply _ _ _ _ _ | (refine KeepsStage.trans ?_ (KeepsStage.reply _ _ _ _ _); exact KeepsStage.setPlate_state hp rfl)
theorem KeepsStage.retirePlate (p : Port) (m : Message) (i : Nat) : KeepsStage s (s.retirePlate p m i) := by
  unfold State.retirePlate
  split
  · exact KeepsStage.reply _ _ _ _ _
  · rename_i pl hp
    split
    · exact KeepsStage.reply _ _ _ _ _
    · rename_i hon
      split
      · exact KeepsStage.reply _ _ _ _ _
      · split
        · exact KeepsStage.reply _ _ _ _ _
        · refine KeepsStage.trans ?_ (KeepsStage.reply _ _ _ _ _)
          intro h
          apply h.setPlate
          · intro a ha; cases ha
          · intro reg hreg e
            obtain ⟨q, hq, hs⟩ := h.2.2 reg hreg
            rw [e, hp] at hq; cases hq
            rw [hs] at hon; exact absurd rfl hon
theorem KeepsStage.acceptPlacement (i : Nat) (pl : Plate) (hp : s.plate i = some pl) (ho : s.occupant = none) : KeepsStage s (s.acceptPlacement i pl) := by
  intro h
  have hno := fun j b => h.1.empty ho j b
  have h1 : StageAgrees (s.setPlate i (some (pl.placed s.settings.autoRegistration))).interruptCalibration := by
    refine KeepsStage.same (s := s.setPlate i (some (pl.placed s.settings.autoRegistration))) (by simp) (by simp) (by simp) (by simp) ?_
    apply h.setPlate
    · intro a ha _; exact .inr hno
    · intro reg hreg e
      obtain ⟨q, hq, hs⟩ := h.2.2 reg hreg
      have := hno _ _ hq; rw [hs] at this; cases this
  unfold State.acceptPlacement
  dsimp only
  refine KeepsStage.settle _ _ ?_
  split
  · rename_i ha
    refine KeepsStage.startRegistration _ (pl := pl.placed true) ?_ rfl _ h1
    have : ∀ u : State, u.interruptCalibration.plate i = u.plate i := by intro u; unfold State.plate; simp
    rw [this, State.plate_setPlate, if_pos ⟨rfl, State.lt_of_plate hp⟩, ha]
  · exact h1
theorem KeepsStage.platePlaced (p : Port) (m : Message) (i : Nat) : KeepsStage s (s.platePlaced p m i) := by
  unfold State.platePlaced
  split
  · exact KeepsStage.place _ _ _
  · split
    · exact KeepsStage.refl _
    · split
      · exact KeepsStage.place _ _ _
      · rename_i ho
        exact KeepsStage.acceptPlacement _ _ _ ‹_› (by simpa using ho)
theorem KeepsStage.plateRemoved (p : Port) (m : Message) (i : Nat) : KeepsStage s (s.plateRemoved p m i) := by
  unfold State.plateRemoved
  split
  · exact KeepsStage.place _ _ _
  · rename_i pl hp
    split
    · rename_i hon
      dsimp only
      refine KeepsStage.trans ?_ (KeepsStage.settle _ _)
      split
      · exact (KeepsStage.removePlate _ _ _).trans (KeepsStage.losePlate _ _)
      · rename_i hf
        refine KeepsStage.setPlate_on hp (by intro e; cases e) ?_
        intro e
        simp [Plate.forcedRemoval, Plate.hasHold, e, PlateState.onStage] at hf
    · exact KeepsStage.place _ _ _
theorem KeepsStage.keep (p : Port) (m : Message) (i : Nat) : KeepsStage s (s.keep p m i) := by
  unfold State.keep
  split
  · exact KeepsStage.reply _ _ _ _ _
  · rename_i hp
    repeat' split
    all_goals first | exact KeepsStage.reply _ _ _ _ _ | (refine KeepsStage.trans (KeepsStage.trans ?_ (KeepsStage.reply _ _ _ _ _)) (KeepsStage.examineOnChange _ _); exact KeepsStage.setPlate_state hp rfl)
theorem KeepsStage.unkeep (p : Port) (m : Message) (i : Nat) : KeepsStage s (s.unkeep p m i) := by
  unfold State.unkeep
  split
  · exact KeepsStage.reply _ _ _ _ _
  · rename_i hp
    repeat' split
    all_goals first | exact KeepsStage.reply _ _ _ _ _ | (refine KeepsStage.trans (KeepsStage.trans ?_ (KeepsStage.reply _ _ _ _ _)) (KeepsStage.examineOnChange _ _); exact KeepsStage.setPlate_state hp rfl)
theorem KeepsStage.releasePlate (p : Port) (m : Message) (i : Nat) : KeepsStage s (s.releasePlate p m i) := by
  unfold State.releasePlate
  split
  · exact KeepsStage.reply _ _ _ _ _
  · rename_i pl hp
    split
    · exact KeepsStage.reply _ _ _ _ _
    · split
      · rename_i hon
        split
        · exact KeepsStage.reply _ _ _ _ _
        · rename_i hf
          refine KeepsStage.trans (KeepsStage.trans (KeepsStage.setPlate_on hp (fun _ => hon) ?_) (KeepsStage.reply _ _ _ _ _)) (KeepsStage.examineOnChange _ _)
          intro e
          simp [Plate.hasHold, e, PlateState.onStage] at hf
      · exact KeepsStage.reply _ _ _ _ _
theorem KeepsStage.register (p : Port) (m : Message) (i : Nat) : KeepsStage s (s.register p m i) := by
  unfold State.register State.busyPlain
  split
  · exact KeepsStage.reply _ _ _ _ _
  · rename_i pl hp
    split
    · exact KeepsStage.reply _ _ _ _ _
    · rename_i hon
      split
      · exact KeepsStage.reply _ _ _ _ _
      · split
        · exact KeepsStage.reply _ _ _ _ _
        · rename_i hno
          unfold State.acceptRegister
          refine KeepsStage.trans (t := (((s.setPlate i (some { pl with state := .registering })).reply p m .accepted).startRegistration i (some p)).examine) ?_ ?_
          · refine KeepsStage.trans ?_ (KeepsStage.examineUpTo _ _)
            refine KeepsStage.trans (KeepsStage.trans (KeepsStage.setPlate_on (pl' := { pl with state := .registering }) hp (fun _ => by simpa using hon) (fun e => hno (.inl e))) (KeepsStage.reply _ p m .accepted .empty)) ?_
            refine KeepsStage.startRegistration _ (pl := { pl with state := .registering }) ?_ rfl _
            have : ∀ u : State, (u.reply p m .accepted).plate i = u.plate i := by intro u; unfold State.plate; simp
            rw [this, State.plate_setPlate, if_pos ⟨rfl, State.lt_of_plate hp⟩]
          · refine KeepsStage.trans ?_ (KeepsStage.offerUnit _); apply KeepsStage.same <;> simp
theorem KeepsStage.submitProgram (p : Port) (m : Message) (f : SubmitFields) : KeepsStage s (s.submitProgram p m f) := by
  unfold State.submitProgram
  split
  · unfold State.refuseSubmit State.badField; split <;> exact KeepsStage.reply _ _ _ _ _
  · rename_i pl c content hc
    split
    · exact KeepsStage.reply _ _ _ _ _
    · rename_i pl' hr
      have hp : s.plate content.slot = some pl := by
        unfold State.checkSubmit at hc
        repeat' split at hc
        all_goals cases hc
        assumption
      have hst : pl'.state = pl.state := by
        unfold Plate.reserve at hr; split at hr <;> cases hr; rfl
      unfold State.acceptSubmit
      refine KeepsStage.trans ?_ (KeepsStage.examineOnChange _ _)
      refine KeepsStage.trans ?_ (KeepsStage.reply _ _ _ _ _)
      refine (KeepsStage.setPlate_state hp hst).trans ?_
      apply KeepsStage.same <;> rfl
theorem KeepsStage.cancelProgram (p : Port) (m : Message) (tag : Nat) : KeepsStage s (s.cancelProgram p m tag) := by
  unfold State.cancelProgram State.cancelReply
  split
  · exact KeepsStage.reply _ _ _ _ _
  · rename_i g _
    split
    · exact KeepsStage.reply _ _ _ _ _
    · split
      · refine KeepsStage.trans ?_ (KeepsStage.settle _ _)
        unfold State.cancelWaiting State.cancelReply
        refine KeepsStage.trans ?_ (KeepsStage.finishProgram _ _)
        refine KeepsStage.trans ?_ (KeepsStage.withdrawCall _ _)
        refine KeepsStage.trans ?_ (KeepsStage.reply _ _ _ _ _)
        refine KeepsStage.trans ?_ (KeepsStage.releaseProgram _ _)
        apply KeepsStage.same <;> simp
      · split
        · refine KeepsStage.trans ?_ (KeepsStage.settle _ _)
          unfold State.cancelRunning State.cancelReply
          refine KeepsStage.trans ?_ (KeepsStage.giveUpTile _ _ _)
          apply KeepsStage.same <;> simp
        · exact KeepsStage.reply _ _ _ _ _
theorem KeepsStage.calibrate (p : Port) (m : Message) (a b c : Nat) : KeepsStage s (s.calibrate p m a b c) := by
  unfold State.calibrate State.busyPlain State.badField
  repeat' split
  all_goals first | exact KeepsStage.reply _ _ _ _ _ | skip
  apply KeepsStage.same <;> simp [State.acceptCalibrate]
theorem KeepsStage.discardTile (p : Port) (m : Message) (id : TileId) : KeepsStage s (s.discardTile p m id) := by
  unfold State.discardTile State.busyTile
  repeat' split
  all_goals first | exact KeepsStage.reply _ _ _ _ _ | (refine KeepsStage.trans ?_ (KeepsStage.settle _ _); apply KeepsStage.same <;> simp)
theorem KeepsStage.fetchTile (p : Port) (m : Message) (id : TileId) (c : Bool) : KeepsStage s (s.fetchTile p m id c) := by
  unfold State.fetchTile State.fetchComplete State.fetchEarly State.busyTile
  repeat' split
  all_goals (apply KeepsStage.same <;> simp [State.streamFetch, State.joinReader, State.openRead, State.makeEntry])
theorem KeepsStage.openDrain (p : Port) (m : Message) (id : TileId) (a b d : Nat) (c : Bool) : KeepsStage s (s.openDrain p m id a b d c) := by
  unfold State.openDrain State.busyTile
  repeat' split
  all_goals (apply KeepsStage.same <;> simp [State.acceptDrain, State.joinReader, State.openRead])
theorem KeepsStage.stopRead (p : Port) (m : Message) : KeepsStage s (s.stopRead p m) := by
  unfold State.stopRead
  split
  · exact KeepsStage.reply _ _ _ _ _
  · dsimp only
    refine KeepsStage.trans ?_ (KeepsStage.settle _ _)
    refine KeepsStage.trans ?_ (KeepsStage.serveUpTo _ _ _)
    repeat' split
    all_goals (apply KeepsStage.same <;> simp)
theorem dropFold_same (l : List Nat) (u : State) : KeepsStage u (l.foldl State.dropProgram u) := by
  induction l generalizing u with
  | nil => exact KeepsStage.refl _
  | cons a l ih => refine KeepsStage.trans ?_ (ih _); apply KeepsStage.same <;> simp
theorem KeepsStage.portReset (p : Port) : KeepsStage s (s.portReset p) := by
  unfold State.portReset
  dsimp only
  refine KeepsStage.trans ?_ (KeepsStage.serveFreed _ _ _)
  refine KeepsStage.trans ?_ (dropFold_same _ _)
  refine KeepsStage.trans (t := s.dropKeep p) ?_ ?_
  · unfold State.dropKeep; split
    · exact KeepsStage.modPlate_state _ _ _ (fun _ => rfl)
    · exact KeepsStage.refl _
  · apply KeepsStage.same <;> simp [State.dropEntries]
theorem KeepsStage.writeSettings (p : Port) (m : Message) (w : Settings) : KeepsStage s (s.writeSettings p m w) := by
  apply KeepsStage.same <;> simp [State.writeSettings]
theorem KeepsStage.setWindow (p : Port) (m : Message) (a b : Nat) : KeepsStage s (s.setWindow p m a b) := by
  apply KeepsStage.same <;> simp [State.setWindow]
theorem KeepsStage.setPreview (p : Port) (m : Message) (a : Bool) : KeepsStage s (s.setPreview p m a) := by
  apply KeepsStage.same <;> simp [State.setPreview]

theorem KeepsStage.endReadSilently (p : Port) : KeepsStage s (s.endReadSilently p) := by apply KeepsStage.same <;> simp
theorem KeepsStage.closeDelivered (p : Port) (r : Read) (t : TileEntry) (_ : True) : KeepsStage s (s.closeDelivered p r t) := by apply KeepsStage.same <;> simp
theorem KeepsStage.entryTurnsReady (id : TileId) : KeepsStage s (s.entryTurnsReady id) := by apply KeepsStage.same <;> simp
theorem KeepsStage.grantWaiting : KeepsStage s s.grantWaiting := by apply KeepsStage.same <;> simp
theorem KeepsStage.withTimer (t : UnitTimer) : KeepsStage s (s.withTimer t) := by apply KeepsStage.same <;> rfl
theorem KeepsStage.resendMove (t : ExposureContext) : KeepsStage s (s.resendMove t) := by apply KeepsStage.same <;> simp
theorem KeepsStage.stopTake : KeepsStage s s.stopTake := by apply KeepsStage.same <;> rfl
theorem KeepsStage.regPhase (p : RegPhase) : KeepsStage s (s.regPhase p) := KeepsStage.modRegistration _ _ (fun _ => rfl)
theorem KeepsStage.lineMerged (c : MergeContext) (p : CalParams) (t : TileEntry) : KeepsStage s (s.lineMerged c p t) := by apply KeepsStage.same <;> simp
theorem KeepsStage.mergeCompleted (t : TileEntry) : KeepsStage s (s.mergeCompleted t) := by apply KeepsStage.same <;> simp

end Sys2Proof.Machine
end

