-- ==== Sys2Proof/Laws/Store.lean ====
section
/-! SUPPORT. What keeps the pages placed, the tile entries in agreement with their programs, and the merge queue and the
reservation lists within their sizes: the relation `KeepsStore` between the state before an operation and the state after
it, and the operations that are in it. -/

namespace Sys2Proof.Machine

/-! ### What an operation keeps -/

/-- From tile entries that agree with their programs the operation leads to such; it keeps the pages placed, and the merge
queue and the reservation lists within their sizes. -/
def KeepsStore (s t : State) : Prop :=
  TilesAgree s → TilesAgree t ∧ (PagesPlaced s → PagesPlaced t) ∧ (Sizes s → Sizes t)

/-- The first two of the three. -/
def KeepsTiles (s t : State) : Prop := TilesAgree s → TilesAgree t ∧ (PagesPlaced s → PagesPlaced t)

/-- All three, where no plate holds a reservation under `tag`: the operation ends the program of that tag. -/
def FreesStore (tag : Nat) (s t : State) : Prop :=
  TilesAgree s → TilesAgree t ∧ (PagesPlaced s → PagesPlaced t) ∧ (Sizes s → Freed s tag → Sizes t)

theorem KeepsTiles.store {s t : State} (h : KeepsTiles s t) (hz : TilesAgree s → Sizes s → Sizes t) : KeepsStore s t :=
  fun hs => ⟨(h hs).1, (h hs).2, hz hs⟩
theorem KeepsTiles.frees {s t : State} {tag : Nat} (h : KeepsTiles s t)
    (hz : TilesAgree s → Sizes s → Freed s tag → Sizes t) : FreesStore tag s t :=
  fun hs => ⟨(h hs).1, (h hs).2, hz hs⟩

theorem KeepsStore.refl (s : State) : KeepsStore s s := fun h => ⟨h, id, id⟩
theorem KeepsStore.trans {s t u : State} (h1 : KeepsStore s t) (h2 : KeepsStore t u) : KeepsStore s u :=
  fun h => ⟨(h2 (h1 h).1).1, fun p => (h2 (h1 h).1).2.1 ((h1 h).2.1 p), fun p => (h2 (h1 h).1).2.2 ((h1 h).2.2 p)⟩

theorem FreesStore.trans {s t u : State} {tag : Nat} (h1 : FreesStore tag s t) (h2 : FreesStore tag t u)
    (hf : Freed s tag → Freed t tag) : FreesStore tag s u :=
  fun h => ⟨(h2 (h1 h).1).1, fun p => (h2 (h1 h).1).2.1 ((h1 h).2.1 p),
    fun p q => (h2 (h1 h).1).2.2 ((h1 h).2.2 p q) (hf q)⟩
/-- A program that ends, its reservation released before. -/
theorem KeepsStore.ends {s t u : State} {tag : Nat} (h1 : KeepsStore s t) (hf : TilesAgree s → Sizes s → Freed t tag)
    (h2 : FreesStore tag t u) : KeepsStore s u :=
  fun h => ⟨(h2 (h1 h).1).1, fun p => (h2 (h1 h).1).2.1 ((h1 h).2.1 p),
    fun p => (h2 (h1 h).1).2.2 ((h1 h).2.2 p) (hf h p)⟩
theorem KeepsStore.frees {s t : State} (tag : Nat) (h : KeepsStore s t) : FreesStore tag s t :=
  fun hs => ⟨(h hs).1, (h hs).2.1, fun hz _ => (h hs).2.2 hz⟩
theorem KeepsTiles.trans {s t u : State} (h1 : KeepsTiles s t) (h2 : KeepsTiles t u) : KeepsTiles s u :=
  fun h => ⟨(h2 (h1 h).1).1, fun p => (h2 (h1 h).1).2 ((h1 h).2 p)⟩
theorem KeepsStore.tiles {s t : State} (h : KeepsStore s t) : KeepsTiles s t := fun hs => ⟨(h hs).1, (h hs).2.1⟩

/-- The part of a program record that the tile entries must agree with. -/
abbrev progKey (g : Program) : Nat × ProgramState × Option CaptureStep × Nat × Nat :=
  (g.tag, g.state, g.captureStep, g.nextTile, g.content.slot)
/-- The part of a tile entry that the pages and the programs must agree with. -/
abbrev tileKey (t : TileEntry) : TileId × TileState × List Nat × List (List Nat) := (t.id, t.state, t.output, t.raws)

/-- What `TilesAgree` and `PagesPlaced` rest on. -/
theorem TilesAgree.same {s t : State} (hp : t.programs.map progKey = s.programs.map progKey)
    (hd : t.directory.map tileKey = s.directory.map tileKey) (hf : t.freePages = s.freePages)
    (ha : t.allocWaiting = s.allocWaiting) (hc : t.tagCounter = s.tagCounter)
    (hu : t.unit.context.map (fun c => (c.kind, c.disposal)) = s.unit.context.map (fun c => (c.kind, c.disposal)))
    (hs : t.unit.state = s.unit.state) (h : TilesAgree s) :
    TilesAgree t ∧ (PagesPlaced s → PagesPlaced t) := by
  have hids : t.directory.map (·.id) = s.directory.map (·.id) := by
    have := congrArg (List.map Prod.fst) hd; simpa [Function.comp_def] using this
  have htags : t.programs.map (·.tag) = s.programs.map (·.tag) := by
    have := congrArg (List.map Prod.fst) hp; simpa [Function.comp_def] using this
  have hch : t.directory.flatMap TileEntry.chains = s.directory.flatMap TileEntry.chains := by
    have := congrArg (List.flatMap (fun k : TileId × TileState × List Nat × List (List Nat) => k.2.2.1 :: k.2.2.2)) hd
    simp only [List.flatMap_map] at this; exact this
  refine ⟨?_, ?_⟩
  · constructor
    · rw [hids]; exact h.ids
    · intro x hx hxs
      obtain ⟨y, hy, e⟩ := mem_key hd hx
      simp only [Prod.mk.injEq] at e
      rw [← e.2.2.1, ← e.2.2.2]; exact h.failed y hy (e.2.1.trans hxs)
    · intro x hx hxs
      obtain ⟨y, hy, e⟩ := mem_key hd hx
      simp only [Prod.mk.injEq] at e
      rw [← e.2.2.2]; exact h.complete y hy (e.2.1.trans hxs)
    · rw [htags]; exact h.tags
    · rw [hc]; exact h.counter
    · intro g hg hgs x hx
      obtain ⟨y, hy, e⟩ := mem_key hd hx
      obtain ⟨g', hg', e'⟩ := mem_key hp hg
      simp only [Prod.mk.injEq] at e e'
      rw [← e.1, ← e'.1]; exact h.waiting g' hg' (by rw [e'.2.1]; exact hgs) y hy
    · intro g hg hgs
      obtain ⟨g', hg', e'⟩ := mem_key hp hg
      simp only [Prod.mk.injEq] at e'
      obtain ⟨a, b⟩ := h.current g' hg' (by rw [e'.2.2.1]; exact hgs)
      refine ⟨e'.2.1 ▸ a, ?_⟩
      intro x hx hxt
      obtain ⟨y, hy, e⟩ := mem_key hd hx
      simp only [Prod.mk.injEq] at e
      rw [← e.1, ← e'.2.2.2.1]; exact b y hy (by rw [e.1, e'.1]; exact hxt)
    · intro g hg hgs x hx hxt
      obtain ⟨g', hg', e'⟩ := mem_key hp hg
      obtain ⟨y, hy, e⟩ := mem_key hd hx
      simp only [Prod.mk.injEq] at e e'
      rw [← e.1, ← e'.2.2.2.1]; exact h.asking g' hg' (by rw [e'.2.2.1]; exact hgs) y hy (by rw [e.1, e'.1]; exact hxt)
    · intro r hr
      obtain ⟨g, hg, a, b, c⟩ := h.request r (ha ▸ hr)
      obtain ⟨g', hg', e'⟩ := mem_key hp.symm hg
      simp only [Prod.mk.injEq] at e'
      exact ⟨g', hg', by rw [e'.2.2.1, a], by rw [e'.1, b], by rw [e'.2.2.2.1, c]⟩
    · intro c id hcx hk hdis
      rw [hcx] at hu
      cases hsc : s.unit.context with
      | none => rw [hsc] at hu; simp at hu
      | some c0 =>
        rw [hsc] at hu; simp only [Option.map_some, Option.some.injEq, Prod.mk.injEq] at hu
        obtain ⟨g, hg, a, b, d⟩ := h.unitTile c0 id hsc (hu.1.symm.trans hk) (hu.2.symm.trans hdis)
        obtain ⟨g', hg', e'⟩ := mem_key hp.symm hg
        simp only [Prod.mk.injEq] at e'
        exact ⟨g', hg', by rw [e'.2.2.1, a], by rw [e'.1, b], by rw [e'.2.2.2.1, d]⟩
    · intro c hcx hdis
      rw [hcx] at hu
      cases hsc : s.unit.context with
      | none => rw [hsc] at hu; simp at hu
      | some c0 =>
        rw [hsc] at hu; simp only [Option.map_some, Option.some.injEq, Prod.mk.injEq] at hu
        rw [hs]; exact h.disposal c0 hsc (hu.2.symm.trans hdis)
    · intro hst
      rw [hs] at hst
      rw [h.idle hst] at hu
      cases hsc : t.unit.context with
      | none => rfl
      | some c0 => rw [hsc] at hu; simp at hu
  · unfold PagesPlaced; rw [hf, hch]; exact id

/-- An operation that leaves all this alone is good. -/
theorem KeepsStore.same_tags {s t : State} (hp : t.programs.map progKey = s.programs.map progKey)
    (hd : t.directory.map tileKey = s.directory.map tileKey) (hf : t.freePages = s.freePages)
    (ha : t.allocWaiting = s.allocWaiting) (hc : t.tagCounter = s.tagCounter)
    (hu : t.unit.context.map (fun c => (c.kind, c.disposal)) = s.unit.context.map (fun c => (c.kind, c.disposal)))
    (hs : t.unit.state = s.unit.state) (hq : t.mergeQueue = s.mergeQueue)
    (hr : ∀ i, resTags (t.plate i) = resTags (s.plate i)) : KeepsStore s t := by
  intro h
  obtain ⟨a, b⟩ := TilesAgree.same hp hd hf ha hc hu hs h
  refine ⟨a, b, Sizes.same ?_ hq ha hr⟩
  have := congrArg (List.map (fun k : Nat × ProgramState × Option CaptureStep × Nat × Nat => (k.1, k.2.1, k.2.2.1, k.2.2.2.2))) hp
  simpa [Function.comp_def] using this

/-- The same where the plate records stand. -/
theorem KeepsStore.same {s t : State} (hp : t.programs.map progKey = s.programs.map progKey)
    (hd : t.directory.map tileKey = s.directory.map tileKey) (hf : t.freePages = s.freePages)
    (ha : t.allocWaiting = s.allocWaiting) (hc : t.tagCounter = s.tagCounter)
    (hu : t.unit.context.map (fun c => (c.kind, c.disposal)) = s.unit.context.map (fun c => (c.kind, c.disposal)))
    (hs : t.unit.state = s.unit.state) (hq : t.mergeQueue = s.mergeQueue) (hr : t.plates = s.plates) : KeepsStore s t :=
  KeepsStore.same_tags hp hd hf ha hc hu hs hq (fun i => by rw [State.plate_congr hr])

theorem map_if {α β : Type} (l : List α) (p : α → Prop) [DecidablePred p] (f : α → α) (k : α → β) (h : ∀ x ∈ l, p x → k (f x) = k x) :
    (l.map (fun x => if p x then f x else x)).map k = l.map k := by
  rw [List.map_map]; apply List.map_congr_left; intro x hx; simp only [Function.comp]; split
  · exact h x hx ‹_›
  · rfl

/-- A change of a program's record. -/
theorem KeepsTiles.modProgram (s : State) (tag : Nat) (f : Program → Program) (ht : ∀ g, (f g).tag = g.tag)
    (hw : ∀ g ∈ s.programs, g.tag = tag → (f g).state.waiting = true → g.state.waiting = true)
    (hc : TilesAgree s → ∀ g ∈ s.programs, g.tag = tag → (f g).captureStep ≠ none → (f g).state = .running ∧
      ∀ t ∈ s.directory, t.id.tag = g.tag → t.id.index ≤ (f g).nextTile)
    (ha : TilesAgree s → ∀ g ∈ s.programs, g.tag = tag → (f g).captureStep = some .storeWait →
      ∀ t ∈ s.directory, t.id.tag = g.tag → t.id.index < (f g).nextTile)
    (hr : TilesAgree s → ∀ g ∈ s.programs, g.tag = tag → g.captureStep = some .storeWait → ∀ r, s.allocWaiting = some r →
      r.id.tag = tag → (f g).captureStep = some .storeWait ∧ (f g).nextTile = g.nextTile)
    (hu : TilesAgree s → ∀ g ∈ s.programs, g.tag = tag → g.captureStep = some .inUnit → ∀ c id, s.unit.context = some c →
      c.kind = .tile id → c.disposal = false → id.tag = tag →
      (f g).captureStep = some .inUnit ∧ (f g).nextTile = g.nextTile) :
    KeepsTiles s (s.modProgram tag f) := by
  intro h
  have hm : ∀ g' ∈ (s.modProgram tag f).programs, ∃ g ∈ s.programs, (g.tag = tag ∧ g' = f g) ∨ (g.tag ≠ tag ∧ g' = g) := by
    intro g' hg'
    simp only [State.modProgram, List.mem_map] at hg'
    obtain ⟨g, hg, e⟩ := hg'
    refine ⟨g, hg, ?_⟩
    by_cases hgt : g.tag = tag
    · rw [if_pos hgt] at e; exact .inl ⟨hgt, e.symm⟩
    · rw [if_neg hgt] at e; exact .inr ⟨hgt, e.symm⟩
  have hm' : ∀ g ∈ s.programs, (if g.tag = tag then f g else g) ∈ (s.modProgram tag f).programs := fun g hg =>
    List.mem_map_of_mem (f := fun g => if g.tag = tag then f g else g) hg
  refine ⟨?_, id⟩
  constructor
  · exact h.ids
  · exact h.failed
  · exact h.complete
  · have : (s.modProgram tag f).programs.map (·.tag) = s.programs.map (·.tag) :=
      map_if _ _ _ _ (fun g _ _ => ht g)
    rw [this]; exact h.tags
  · exact h.counter
  · intro g' hg' hgs t htd
    obtain ⟨g, hg, ⟨a, rfl⟩ | ⟨a, rfl⟩⟩ := hm g' hg'
    · rw [ht]; exact h.waiting g hg (hw g hg a hgs) t htd
    · exact h.waiting _ hg hgs t htd
  · intro g' hg' hgs
    obtain ⟨g, hg, ⟨a, rfl⟩ | ⟨a, rfl⟩⟩ := hm g' hg'
    · have := hc h g hg a hgs; rw [ht]; exact this
    · exact h.current _ hg hgs
  · intro g' hg' hgs t htd htt
    obtain ⟨g, hg, ⟨a, rfl⟩ | ⟨a, rfl⟩⟩ := hm g' hg'
    · exact ha h g hg a hgs t htd (by rw [ht] at htt; exact htt)
    · exact h.asking _ hg hgs t htd htt
  · intro r hrr
    obtain ⟨g, hg, a, b, c⟩ := h.request r hrr
    refine ⟨_, hm' g hg, ?_⟩
    by_cases hgt : g.tag = tag
    · obtain ⟨d, e⟩ := hr h g hg hgt a r hrr (b.trans hgt)
      rw [if_pos hgt]; exact ⟨d, by rw [ht]; exact b, by rw [e]; exact c⟩
    · rw [if_neg hgt]; exact ⟨a, b, c⟩
  · intro c id hcx hk hdis
    obtain ⟨g, hg, a, b, d⟩ := h.unitTile c id hcx hk hdis
    refine ⟨_, hm' g hg, ?_⟩
    by_cases hgt : g.tag = tag
    · obtain ⟨x, y⟩ := hu h g hg hgt a c id hcx hk hdis (b.trans hgt)
      rw [if_pos hgt]; exact ⟨x, by rw [ht]; exact b, by rw [y]; exact d⟩
    · rw [if_neg hgt]; exact ⟨a, b, d⟩
  · exact h.disposal
  · exact h.idle

/-- A change of a program's record beside its state, its capture step and its next tile. -/
theorem KeepsStore.modProgram_key (s : State) (tag : Nat) (f : Program → Program) (h : ∀ g, progKey (f g) = progKey g) :
    KeepsStore s (s.modProgram tag f) := by
  apply KeepsStore.same <;> try rfl
  exact map_if _ _ _ _ (fun g _ _ => h g)

/-- A program leaves its capture step: no request waits for it and the unit holds none of its tiles. -/
theorem KeepsTiles.modProgram_ends (s : State) (tag : Nat) (f : Program → Program) (ht : ∀ g, (f g).tag = g.tag)
    (hs : ∀ g, (f g).state.waiting = true → g.state.waiting = true) (hc : ∀ g, (f g).captureStep = none)
    (hr : TilesAgree s → ∀ r, s.allocWaiting = some r → r.id.tag ≠ tag)
    (hu : TilesAgree s → ∀ c id, s.unit.context = some c → c.kind = .tile id → c.disposal = false → id.tag ≠ tag) :
    KeepsTiles s (s.modProgram tag f) := by
  apply KeepsTiles.modProgram s tag f ht (fun g _ _ => hs g)
  · intro _ g _ _ h; exact absurd (hc g) h
  · intro _ g _ _ h; rw [hc] at h; cases h
  · intro h g _ _ _ r a b; exact absurd b (hr h r a)
  · intro h g _ _ _ c id a b d e; exact absurd e (hu h c id a b d)

/-- A change of a tile entry's state, without a change of its chains. -/
theorem KeepsStore.modTile (s : State) (id : TileId) (f : TileEntry → TileEntry)
    (hf : ∀ t, (f t).id = t.id ∧ (f t).output = t.output ∧ (f t).raws = t.raws)
    (h1 : ∀ t, (f t).state = .failed → t.state = .failed) (h2 : ∀ t, (f t).state = .complete → t.state = .complete) :
    KeepsStore s (s.modTile id f) := by
  intro h
  have hids : (s.modTile id f).directory.map (·.id) = s.directory.map (·.id) :=
    map_if _ _ _ _ (fun t _ _ => (hf t).1)
  have hm : ∀ t' ∈ (s.modTile id f).directory, ∃ t ∈ s.directory, t'.id = t.id ∧ t'.output = t.output ∧ t'.raws = t.raws ∧
      (t'.state = .failed → t.state = .failed) ∧ (t'.state = .complete → t.state = .complete) := by
    intro t' ht'
    simp only [State.modTile, List.mem_map] at ht'
    obtain ⟨t, ht, rfl⟩ := ht'
    refine ⟨t, ht, ?_⟩
    split
    · exact ⟨(hf t).1, (hf t).2.1, (hf t).2.2, h1 t, h2 t⟩
    · exact ⟨rfl, rfl, rfl, fun h => h, fun h => h⟩
  refine ⟨?_, ?_, Sizes.same rfl rfl rfl (fun _ => rfl)⟩
  · constructor
    · rw [hids]; exact h.ids
    · intro t' ht' hs
      obtain ⟨t, ht, a, b, c, d, e⟩ := hm t' ht'
      rw [b, c]; exact h.failed t ht (d hs)
    · intro t' ht' hs
      obtain ⟨t, ht, a, b, c, d, e⟩ := hm t' ht'
      rw [c]; exact h.complete t ht (e hs)
    · exact h.tags
    · exact h.counter
    · intro g hg hgs t' ht'
      obtain ⟨t, ht, a, -⟩ := hm t' ht'
      rw [a]; exact h.waiting g hg hgs t ht
    · intro g hg hgs
      refine ⟨(h.current g hg hgs).1, ?_⟩
      intro t' ht'
      obtain ⟨t, ht, a, -⟩ := hm t' ht'
      rw [a]; exact (h.current g hg hgs).2 t ht
    · intro g hg hgs t' ht'
      obtain ⟨t, ht, a, -⟩ := hm t' ht'
      rw [a]; exact h.asking g hg hgs t ht
    · exact h.request
    · exact h.unitTile
    · exact h.disposal
    · exact h.idle
  · have : (s.modTile id f).directory.flatMap TileEntry.chains = s.directory.flatMap TileEntry.chains := by
      have : (s.modTile id f).directory.map TileEntry.chains = s.directory.map TileEntry.chains :=
        map_if _ _ _ _ (fun t _ _ => by simp [TileEntry.chains, hf t])
      rw [List.flatMap_def, List.flatMap_def, this]
    unfold PagesPlaced; rw [this]; exact fun h => h

/-- The directory without the entry of `id` is that of the others: what holds of all tile entries stays. -/
theorem TilesAgree.sub {s : State} (h : TilesAgree s) (l : List TileEntry) (free : List Nat) (hl : l.Sublist s.directory) :
    TilesAgree { s with directory := l, freePages := free } := by
  have hm : ∀ t ∈ l, t ∈ s.directory := fun t ht => hl.subset ht
  constructor
  · exact h.ids.sublist (hl.map _)
  · exact fun t ht => h.failed t (hm t ht)
  · exact fun t ht => h.complete t (hm t ht)
  · exact h.tags
  · exact h.counter
  · exact fun g hg hs t ht => h.waiting g hg hs t (hm t ht)
  · exact fun g hg hs => ⟨(h.current g hg hs).1, fun t ht => (h.current g hg hs).2 t (hm t ht)⟩
  · exact fun g hg hs t ht => h.asking g hg hs t (hm t ht)
  · exact h.request
  · exact h.unitTile
  · exact h.disposal
  · exact h.idle

/-- The entry of an id and the others. -/
theorem split_tile {l : List TileEntry} (hn : (l.map (·.id)).Nodup) {id : TileId} {t : TileEntry}
    (h : l.find? (fun x => decide (x.id = id)) = some t) :
    ∃ b a, l = b ++ t :: a ∧ t.id = id ∧ (∀ x ∈ b ++ a, x.id ≠ id) := by
  rw [List.find?_eq_some_iff_append] at h
  obtain ⟨hid, b, a, rfl, hb⟩ := h
  have hid : t.id = id := by simpa using hid
  refine ⟨b, a, rfl, hid, ?_⟩
  intro x hx
  rw [List.mem_append] at hx
  rcases hx with hx | hx
  · simpa using hb x hx
  · intro he
    rw [List.map_append, List.map_cons, List.nodup_append] at hn
    have := (List.nodup_cons.1 hn.2.1).1
    exact this (by rw [hid, ← he]; exact List.mem_map_of_mem hx)

theorem filter_others {b a : List TileEntry} {t : TileEntry} {id : TileId} (hid : t.id = id) (ho : ∀ x ∈ b ++ a, x.id ≠ id) :
    (b ++ t :: a).filter (fun x => decide (x.id ≠ id)) = b ++ a := by
  have hb : b.filter (fun x => decide (x.id ≠ id)) = b := by
    rw [List.filter_eq_self]; intro x hx; simpa using ho x (by simp [hx])
  have ha : a.filter (fun x => decide (x.id ≠ id)) = a := by
    rw [List.filter_eq_self]; intro x hx; simpa using ho x (by simp [hx])
  rw [List.filter_append, List.filter_cons, hb, ha]; simp [hid]

theorem map_others {b a : List TileEntry} {t : TileEntry} {id : TileId} (f : TileEntry → TileEntry) (hid : t.id = id)
    (ho : ∀ x ∈ b ++ a, x.id ≠ id) : (b ++ t :: a).map (fun x => if x.id = id then f x else x) = b ++ f t :: a := by
  have key : ∀ l : List TileEntry, (∀ x ∈ l, x.id ≠ id) → l.map (fun x => if x.id = id then f x else x) = l := by
    intro l hl
    induction l with
    | nil => rfl
    | cons x l ih => rw [List.map_cons, if_neg (hl x (by simp)), ih (fun y hy => hl y (by simp [hy]))]
  rw [List.map_append, List.map_cons, if_pos hid, key b (fun x hx => ho x (by simp [hx])), key a (fun x hx => ho x (by simp [hx]))]

theorem flatten_split (b a : List TileEntry) (t : TileEntry) :
    ((b ++ t :: a).flatMap TileEntry.chains).flatten = (b.flatMap TileEntry.chains).flatten ++ (t.output ++ t.raws.flatten) ++ (a.flatMap TileEntry.chains).flatten := by
  simp [List.flatMap_append, List.flatMap_cons, TileEntry.chains]

/-- A tile entry without raw chains leaves the directory and its output chain returns. -/
theorem KeepsStore.freeEntry (s : State) (id : TileId) (t : TileEntry) (ht : s.tile? id = some t) (hr : TilesAgree s → t.raws = []) :
    KeepsStore s { s with freePages := s.freePages ++ t.output, directory := s.directory.filter (fun x => decide (x.id ≠ id)) } := by
  intro h
  refine ⟨h.sub _ _ List.filter_sublist, ?_, Sizes.same rfl rfl rfl (fun _ => rfl)⟩
  obtain ⟨b, a, hd, hid, ho⟩ := split_tile h.ids ht
  intro hp
  unfold PagesPlaced at *
  simp only [hd] at hp ⊢
  rw [filter_others hid ho]
  rw [flatten_split, hr h] at hp
  refine List.Perm.trans ?_ hp
  simp only [List.flatMap_append, List.flatten_append, List.flatten_nil, List.append_nil]
  rw [List.append_assoc]
  apply List.Perm.append_left
  rw [← List.append_assoc]
  apply List.Perm.append_right
  exact List.perm_append_comm

/-- Tile entries without chains leave the directory. -/
theorem KeepsStore.dropEntries (s : State) (q : TileEntry → Bool) (hq : TilesAgree s → ∀ t ∈ s.directory, q t = false → t.output = [] ∧ t.raws = []) :
    KeepsStore s { s with directory := s.directory.filter q } := by
  intro h
  refine ⟨h.sub (s.directory.filter q) s.freePages List.filter_sublist, ?_, Sizes.same rfl rfl rfl (fun _ => rfl)⟩
  have : ((s.directory.filter q).flatMap TileEntry.chains).flatten = (s.directory.flatMap TileEntry.chains).flatten := by
    have hq := hq h
    clear h
    generalize s.directory = l at hq ⊢
    induction l with
    | nil => rfl
    | cons t l ih =>
      have ih := ih (fun x hx => hq x (by simp [hx]))
      rw [List.filter_cons]
      split
      · simp only [List.flatMap_cons, List.flatten_append, ih]
      · rename_i hqt
        have := hq t (by simp) (by simpa using hqt)
        simp only [List.flatMap_cons, List.flatten_append, ih, TileEntry.chains, this.1, this.2]
        simp
  unfold PagesPlaced
  simp only [this]; exact id

/-- A tile gives all its chains back, and its entry has none. -/
theorem KeepsStore.clearTile (s : State) (id : TileId) (t : TileEntry) (ht : s.tile? id = some t) (f : TileEntry → TileEntry) (ret : List Nat)
    (hf : ∀ x, (f x).id = x.id) (hfail : (f t).state = .failed → (f t).output = [] ∧ (f t).raws = [])
    (hcomp : (f t).state = .complete → (f t).raws = [])
    (hret : (ret ++ ((f t).output ++ (f t).raws.flatten)).Perm (t.output ++ t.raws.flatten)) :
    KeepsStore s { s with freePages := s.freePages ++ ret, directory := s.directory.map (fun x => if x.id = id then f x else x) } := by
  intro h
  obtain ⟨b, a, hd, hid, ho⟩ := split_tile h.ids ht
  have hdir : s.directory.map (fun x => if x.id = id then f x else x) = b ++ f t :: a := by rw [hd, map_others f hid ho]
  have hids : (s.directory.map (fun x => if x.id = id then f x else x)).map (·.id) = s.directory.map (·.id) :=
    map_if _ _ _ _ (fun x _ _ => hf x)
  have hm : ∀ x' ∈ s.directory.map (fun x => if x.id = id then f x else x), ∃ x ∈ s.directory, x'.id = x.id ∧ (x' = x ∨ x' = f t) := by
    rw [hdir, hd]
    intro x' hx'
    simp only [List.mem_append, List.mem_cons] at hx' ⊢
    rcases hx' with hx' | rfl | hx'
    · exact ⟨x', .inl hx', rfl, .inl rfl⟩
    · exact ⟨t, .inr (.inl rfl), hf t, .inr rfl⟩
    · exact ⟨x', .inr (.inr hx'), rfl, .inl rfl⟩
  refine ⟨?_, ?_, Sizes.same rfl rfl rfl (fun _ => rfl)⟩
  · constructor
    · simp only [hids]; exact h.ids
    · intro x' hx' hs
      obtain ⟨x, hx, -, rfl | rfl⟩ := hm x' hx'
      · exact h.failed _ hx hs
      · exact hfail hs
    · intro x' hx' hs
      obtain ⟨x, hx, -, rfl | rfl⟩ := hm x' hx'
      · exact h.complete _ hx hs
      · exact hcomp hs
    · exact h.tags
    · exact h.counter
    · intro g hg hgs x' hx'
      obtain ⟨x, hx, e, -⟩ := hm x' hx'
      rw [e]; exact h.waiting g hg hgs x hx
    · intro g hg hgs
      refine ⟨(h.current g hg hgs).1, ?_⟩
      intro x' hx'
      obtain ⟨x, hx, e, -⟩ := hm x' hx'
      rw [e]; exact (h.current g hg hgs).2 x hx
    · intro g hg hgs x' hx'
      obtain ⟨x, hx, e, -⟩ := hm x' hx'
      rw [e]; exact h.asking g hg hgs x hx
    · exact h.request
    · exact h.unitTile
    · exact h.disposal
    · exact h.idle
  · intro hp
    unfold PagesPlaced at *
    simp only [hdir]
    rw [hd] at hp
    rw [flatten_split] at hp ⊢
    refine List.Perm.trans ?_ hp
    rw [List.append_assoc]
    apply List.Perm.append_left
    rw [← List.append_assoc]
    apply List.Perm.append_right
    refine List.Perm.trans ?_ (List.Perm.append_left _ hret)
    rw [← List.append_assoc, ← List.append_assoc ret, ← List.append_assoc, ← List.append_assoc]
    apply List.Perm.append_right
    rw [← List.append_assoc]
    apply List.Perm.append_right
    exact List.perm_append_comm

/-- A change of the exposure unit and of nothing else that matters here. -/
theorem KeepsStore.unit (s : State) (u : ExposureUnit)
    (hu : TilesAgree s → ∀ c id, u.context = some c → c.kind = .tile id → c.disposal = false → ∃ g ∈ s.programs,
      g.captureStep = some .inUnit ∧ id.tag = g.tag ∧ id.index = g.nextTile)
    (hd : TilesAgree s → ∀ c, u.context = some c → c.disposal = true → u.state = .readout)
    (hi : TilesAgree s → u.state = .idle → u.context = none) : KeepsStore s { s with unit := u } := by
  intro h
  exact ⟨⟨h.ids, h.failed, h.complete, h.tags, h.counter, h.waiting, h.current, h.asking, h.request, hu h, hd h, hi h⟩, id,
    Sizes.same rfl rfl rfl (fun _ => rfl)⟩

theorem TilesAgree.uniq {s : State} (h : TilesAgree s) {g g' : Program} (hg : g ∈ s.programs) (hg' : g' ∈ s.programs)
    (e : g.tag = g'.tag) : g = g' := by
  have := h.tags
  generalize s.programs = l at *
  induction l with
  | nil => cases hg
  | cons a l ih =>
    rw [List.map_cons, List.nodup_cons] at this
    simp only [List.mem_cons] at hg hg'
    rcases hg with rfl | hg <;> rcases hg' with rfl | hg'
    · rfl
    · exact absurd (e ▸ List.mem_map_of_mem hg') this.1
    · exact absurd (e ▸ List.mem_map_of_mem hg) this.1
    · exact ih hg hg' this.2

/-- No request waits for a tile of `tag` and the exposure unit holds none, but in disposal. -/
def Quiet (s : State) (tag : Nat) : Prop :=
  (∀ r, s.allocWaiting = some r → r.id.tag ≠ tag) ∧
  (∀ c id, s.unit.context = some c → c.kind = .tile id → c.disposal = false → id.tag ≠ tag)

theorem TilesAgree.quiet {s : State} (h : TilesAgree s) {tag : Nat}
    (hg : ∀ g ∈ s.programs, g.tag = tag → g.captureStep ≠ some .storeWait ∧ g.captureStep ≠ some .inUnit) : Quiet s tag := by
  refine ⟨?_, ?_⟩
  · intro r hr e
    obtain ⟨g, hg1, a, b, -⟩ := h.request r hr
    exact (hg g hg1 (b.symm.trans e)).1 a
  · intro c id h1 h2 h3 e
    obtain ⟨g, hg1, a, b, -⟩ := h.unitTile c id h1 h2 h3
    exact (hg g hg1 (b.symm.trans e)).2 a

theorem program?_mem {s : State} {tag : Nat} {g : Program} (h : s.program? tag = some g) : g ∈ s.programs :=
  List.mem_of_find?_eq_some h

/-! ### Operations that leave programs and tiles alone -/

variable (s : State)

theorem KeepsStore.place (p : Port) (e : OutEntry) : KeepsStore s (s.place p e) := by apply KeepsStore.same <;> simp
theorem KeepsStore.setPort (p : Port) (q : PortState) : KeepsStore s (s.setPort p q) := by apply KeepsStore.same <;> simp
theorem KeepsStore.emit (e : Emission) : KeepsStore s (s.emit e) := by apply KeepsStore.same <;> simp
theorem KeepsStore.fresh : KeepsStore s s.fresh := by apply KeepsStore.same <;> simp

/-- A record takes the place of another: it holds no reservation, or those of the record before it. -/
theorem KeepsStore.setPlate (i : Nat) (r : Option Plate) (hr : ∀ pl, r = some pl → pl.reservations = [] ∨
      ∃ pl0, s.plate i = some pl0 ∧ (pl.reservations.map (·.tag)).Sublist (pl0.reservations.map (·.tag))) :
    KeepsStore s (s.setPlate i r) := by
  intro h
  obtain ⟨a, b⟩ := TilesAgree.same (s := s) (t := s.setPlate i r) (by simp) (by simp) (by simp) (by simp) (by simp) (by simp) (by simp) h
  exact ⟨a, b, fun hz => hz.setPlate i r hr⟩

/-- A change of a plate's record beside its reservations. -/
theorem KeepsStore.setPlate_same {i : Nat} {pl0 : Plate} (h : s.plate i = some pl0) (pl : Plate)
    (hr : pl.reservations = pl0.reservations) : KeepsStore s (s.setPlate i (some pl)) := by
  apply KeepsStore.setPlate
  intro x hx; cases hx
  exact .inr ⟨pl0, h, by rw [hr]⟩

theorem KeepsStore.modPlate (i : Nat) (f : Plate → Plate) (hf : ∀ pl, (f pl).reservations = pl.reservations) :
    KeepsStore s (s.modPlate i f) := by
  unfold State.modPlate; split
  · rename_i pl h; exact KeepsStore.setPlate_same s h _ (hf pl)
  · exact KeepsStore.refl _

theorem KeepsStore.issueNotice (i : Nat) (n : PendingNotice) : KeepsStore s (s.issueNotice i n) := by
  unfold State.issueNotice; split
  · exact KeepsStore.refl _
  · split
    · exact KeepsStore.place _ _ _
    · exact KeepsStore.modPlate _ _ _ (fun _ => rfl)
theorem KeepsStore.issuePending (i : Nat) : KeepsStore s (s.issuePending i) := by
  unfold State.issuePending; split
  · exact KeepsStore.refl _
  · split
    · exact KeepsStore.refl _
    · refine KeepsStore.trans ?_ (KeepsStore.place _ _ _)
      exact KeepsStore.modPlate _ _ _ (fun _ => rfl)
theorem KeepsStore.withdrawCall (i : Nat) : KeepsStore s (s.withdrawCall i) := by
  unfold State.withdrawCall; split
  · exact KeepsStore.refl _
  · rename_i pl h
    split
    · dsimp only
      split
      · exact KeepsStore.setPlate_same s h _ rfl
      · refine KeepsStore.trans ?_ (KeepsStore.place _ _ _)
        exact KeepsStore.setPlate_same s h _ rfl
    · exact KeepsStore.refl _
theorem KeepsStore.turnEntry (id : TileId) (st : EntryState) : KeepsStore s (s.turnEntry id st) := by apply KeepsStore.same <;> simp
theorem KeepsStore.sendTileReady (id : TileId) (p : Port) : KeepsStore s (s.sendTileReady id p) := by apply KeepsStore.same <;> simp
theorem KeepsStore.entryTurnsReady (id : TileId) : KeepsStore s (s.entryTurnsReady id) := by apply KeepsStore.same <;> simp
theorem KeepsStore.judgeBurst (p : Port) : KeepsStore s (s.judgeBurst p) := by apply KeepsStore.same <;> simp
theorem KeepsStore.judgeTileBurst (id : TileId) : KeepsStore s (s.judgeTileBurst id) := by apply KeepsStore.same <;> simp
theorem KeepsStore.failDrain (t : TileEntry) : KeepsStore s (s.failDrain t) := by apply KeepsStore.same <;> simp
theorem KeepsStore.placeWaitingClose (p : Port) : KeepsStore s (s.placeWaitingClose p) := by apply KeepsStore.same <;> simp
theorem KeepsStore.sendRegDone (r : Registration) (pl : Plate) (o : RegOutcome) (f : Option Nat) (n : Nat) :
    KeepsStore s (s.sendRegDone r pl o f n) := by apply KeepsStore.same <;> simp
theorem KeepsStore.endRegistration (r : Registration) (o : RegOutcome) (f : Option Nat) (n : Nat) :
    KeepsStore s (s.endRegistration r o f n) := by
  have h0 : KeepsStore s { s with registration := none } := by apply KeepsStore.same <;> rfl
  unfold State.endRegistration; split
  · exact h0
  · rename_i pl h
    refine KeepsStore.trans (h0.trans ?_) (KeepsStore.sendRegDone _ _ _ _ _ _)
    exact KeepsStore.setPlate_same { s with registration := none } h _ rfl
theorem KeepsStore.marginEnds (o : RegOutcome) : KeepsStore s (s.marginEnds o) := by
  unfold State.marginEnds; split
  · exact KeepsStore.endRegistration _ _ _ _ _
  · exact KeepsStore.refl _
theorem KeepsStore.endCalibration (k : CalContext) (o : CalOutcome) (f : CalFigures) :
    KeepsStore s (s.endCalibration k o f) := by apply KeepsStore.same <;> simp
theorem KeepsStore.calibrationFails (o : CalOutcome) : KeepsStore s (s.calibrationFails o) := by apply KeepsStore.same <;> simp
theorem KeepsStore.lightFrameDone (k : CalContext) : KeepsStore s (s.lightFrameDone k) := by apply KeepsStore.same <;> simp

theorem setRemaining_tags (l : List Reservation) (tag amount : Nat) :
    (setRemaining l tag amount).map (·.tag) = l.map (·.tag) := by
  induction l with
  | nil => rfl
  | cons r l ih => unfold setRemaining; split <;> simp [ih]

/-- A charge takes no reservation from the list and adds none. -/
theorem KeepsStore.charge (i : Nat) (f : Plate → ChargeAnswer × Plate)
    (hf : ∀ pl, (f pl).2.reservations.map (·.tag) = pl.reservations.map (·.tag)) : KeepsStore s (s.charge i f).2 := by
  unfold State.charge; split
  · exact KeepsStore.refl _
  · rename_i pl h
    split
    · rename_i pl' e
      apply KeepsStore.setPlate
      intro x hx; cases hx
      have := hf pl; rw [e] at this
      exact .inr ⟨pl, h, by rw [this]⟩
    · exact KeepsStore.refl _

theorem unreservedCharge_tags (q : PlateState) (c : Nat) (pl : Plate) :
    (pl.unreservedCharge q c).2.reservations.map (·.tag) = pl.reservations.map (·.tag) := by
  unfold Plate.unreservedCharge; repeat' split
  all_goals rfl

theorem programCharge_tags (tag c : Nat) (pl : Plate) :
    (pl.programCharge tag c).2.reservations.map (·.tag) = pl.reservations.map (·.tag) := by
  unfold Plate.programCharge; repeat' split
  all_goals first | rfl | exact setRemaining_tags _ _ _

theorem KeepsStore.chargeMargin (cost : Nat) : KeepsStore s (s.chargeMargin cost).2 := by
  unfold State.chargeMargin; split
  · exact KeepsStore.refl _
  · rename_i r _
    have := KeepsStore.charge s r.slot _ (unreservedCharge_tags .registering cost)
    split
    · rename_i s' e; rw [e] at this; refine this.trans ?_; apply KeepsStore.same <;> rfl
    · exact this
theorem KeepsStore.storeLine (c : ExposureContext) (y : Nat) (v : List Sample) : KeepsStore s (s.storeLine c y v) := by
  apply KeepsStore.same <;> simp
theorem KeepsStore.offerPreview (t : TileEntry) (y : Nat) (c : List (BitVec 16)) (p : Port) :
    KeepsStore s (s.offerPreview t y c p) := by apply KeepsStore.same <;> simp
theorem KeepsStore.regPhase (ph : RegPhase) : KeepsStore s (s.regPhase ph) := by apply KeepsStore.same <;> simp
theorem KeepsStore.countMarginRetake : KeepsStore s s.countMarginRetake := by apply KeepsStore.same <;> simp
theorem KeepsStore.countRetake : KeepsStore s s.countRetake := by
  apply KeepsStore.same <;> simp [State.countRetake, State.modContext]
  cases s.unit.context <;> rfl
theorem KeepsStore.stopTake : KeepsStore s s.stopTake := by apply KeepsStore.same <;> simp
theorem KeepsStore.withTimer (t : UnitTimer) : KeepsStore s (s.withTimer t) := by apply KeepsStore.same <;> simp
theorem KeepsStore.beginSending (p : Port) : KeepsStore s (s.beginSending p) := by apply KeepsStore.same <;> simp

/-! ### Programs -/

theorem KeepsStore.fixOutcome (tag : Nat) (o : ProgramOutcome) : KeepsStore s (s.fixOutcome tag o) :=
  KeepsStore.modProgram_key _ _ _ (fun _ => rfl)

theorem KeepsStore.releaseProgram (tag : Nat) : KeepsStore s (s.releaseProgram tag) := by
  unfold State.releaseProgram; split
  · exact KeepsStore.refl _
  · split
    · exact KeepsStore.modProgram_key _ _ _ (fun _ => rfl)
    · rename_i pl h
      refine (KeepsStore.setPlate _ _ _ ?_).trans (KeepsStore.modProgram_key _ _ _ (fun _ => rfl))
      intro x hx; cases hx
      exact .inr ⟨pl, h, List.filter_sublist.map _⟩

/-- After the release no plate holds a reservation under the tag (01 R14). -/
theorem freed_releaseProgram {s : State} (hs : TilesAgree s) (hz : Sizes s) (tag : Nat) : Freed (s.releaseProgram tag) tag := by
  unfold State.releaseProgram; split
  · rename_i h
    apply hz.freed
    intro g hg e
    have := List.find?_eq_none.1 h g hg
    simp [e] at this
  · rename_i g hg
    have htag : g.tag = tag := by simpa using List.find?_some hg
    have hslot : ∀ i pl, s.plate i = some pl → ∀ r ∈ pl.reservations, r.tag = tag → i = g.content.slot := by
      intro i pl hpl r hr e
      obtain ⟨g', hg', a, b, -⟩ := (hz.2 i pl hpl).2 r hr
      rw [← b, hs.uniq hg' (program?_mem hg) (by rw [a, e, htag])]
    split
    · rename_i hno
      intro i pl hpl r hr e
      rw [State.modProgram_plate] at hpl
      rw [hslot i pl hpl r hr e, hno] at hpl; cases hpl
    · rename_i pl0 h0
      intro i pl hpl r hr e
      rw [State.modProgram_plate, State.plate_setPlate] at hpl
      split at hpl
      · cases hpl
        simp only [Plate.release, List.mem_filter, decide_eq_true_eq] at hr
        exact hr.2 e
      · rename_i hne
        have := hslot i pl hpl r hr e
        exact hne ⟨this.symm, State.lt_of_plate hpl⟩

theorem KeepsStore.chargeTile (tag cost : Nat) (b : Bool) : KeepsStore s (s.chargeTile tag cost b).2 := by
  unfold State.chargeTile; split
  · exact KeepsStore.refl _
  · split
    · exact KeepsStore.refl _
    · rename_i g _ _
      have := KeepsStore.charge s g.content.slot (fun pl => if b then pl.unreservedCharge .staged cost else pl.programCharge tag cost)
        (fun pl => by cases b; exact programCharge_tags _ _ _; exact unreservedCharge_tags _ _ _)
      split
      · rename_i s' e; rw [e] at this; exact this.trans (KeepsStore.modProgram_key _ _ _ (fun _ => rfl))
      · exact this

theorem FreesStore.dropProgram (tag : Nat) (h : TilesAgree s → Quiet s tag) : FreesStore tag s (s.dropProgram tag) := by
  have h2 : FreesStore tag s { s with programs := s.programs.filter (fun g => decide (g.tag ≠ tag)) } := by
    intro hs
    have hm : ∀ g ∈ s.programs.filter (fun g => decide (g.tag ≠ tag)), g ∈ s.programs := fun g hg => List.mem_of_mem_filter hg
    refine ⟨?_, fun h => h, fun hz hf => hz.dropProgram hf⟩
    constructor
    · exact hs.ids
    · exact hs.failed
    · exact hs.complete
    · exact hs.tags.sublist (List.filter_sublist.map _)
    · exact hs.counter
    · exact fun g hg => hs.waiting g (hm g hg)
    · exact fun g hg => hs.current g (hm g hg)
    · exact fun g hg => hs.asking g (hm g hg)
    · intro r hr
      obtain ⟨g, hg, a, b, c⟩ := hs.request r hr
      refine ⟨g, ?_, a, b, c⟩
      rw [List.mem_filter]; refine ⟨hg, ?_⟩
      have := (h hs).1 r hr; rw [b] at this; simpa using this
    · intro c id h1 h2 h3
      obtain ⟨g, hg, a, b, d⟩ := hs.unitTile c id h1 h2 h3
      refine ⟨g, ?_, a, b, d⟩
      rw [List.mem_filter]; refine ⟨hg, ?_⟩
      have := (h hs).2 c id h1 h2 h3; rw [b] at this; simpa using this
    · exact hs.disposal
    · exact hs.idle
  refine h2.trans (KeepsStore.frees tag ?_) (fun h => h)
  apply KeepsStore.dropEntries
  intro hs t ht hq
  apply hs.failed t ht
  simp only [Bool.not_eq_false', Bool.and_eq_true, decide_eq_true_eq] at hq
  exact hq.2

/-- The Quiet premise rests on the request and the exposure unit alone. -/
theorem Quiet.of_eq {s t : State} {tag : Nat} (h : Quiet s tag) (ha : t.allocWaiting = s.allocWaiting) (hu : t.unit = s.unit) :
    Quiet t tag := by unfold Quiet; rw [ha, hu]; exact h

theorem FreesStore.deliverDone (tag : Nat) (h : TilesAgree s → Quiet s tag) : FreesStore tag s (s.deliverDone tag) := by
  unfold State.deliverDone; split
  · exact (KeepsStore.refl _).frees tag
  · split
    · intro hs
      refine (((KeepsStore.place _ _ _).frees tag).trans (FreesStore.dropProgram _ _ ?_) (fun h => h.of_plates (by simp))) hs
      intro _; exact (h hs).of_eq (by simp) (by simp)
    · exact (KeepsStore.refl _).frees tag

/-- A program whose reservation is released needs none in its next state. -/
theorem Sizes.endProgram {s : State} (h : Sizes s) (hs : TilesAgree s) {tag : Nat} (hf : Freed s tag)
    (f : Program → Program) (ht : ∀ g, (f g).tag = g.tag ∧ (f g).content = g.content)
    (hc : ∀ g ∈ s.programs, g.tag = tag → (f g).state.counted = true → g.state.counted = true)
    (hn : ∀ g ∈ s.programs, g.tag = tag → (f g).captureStep = none) : Sizes (s.modProgram tag f) := by
  apply h.modProgram hs.tags tag f ht hc (.inr hf)
  · intro g hg e hx; exact absurd (hn g hg e) hx
  · intro g hg e hx; rw [hn g hg e] at hx; simp at hx

theorem FreesStore.finishProgram (tag : Nat) (h : TilesAgree s → Quiet s tag) : FreesStore tag s (s.finishProgram tag) := by
  unfold State.finishProgram
  intro hs
  refine (((KeepsTiles.modProgram_ends s tag (fun g => { g with state := .finished, captureStep := none }) (fun _ => rfl) ?_
    (fun _ => rfl) (fun _ => (h hs).1) (fun _ => (h hs).2)).frees ?_).trans (FreesStore.deliverDone _ _ ?_)
      (fun h => h.of_plates rfl)) hs
  · intro g hg; cases hg
  · intro hs hz hf
    exact hz.endProgram hs hf _ (fun _ => ⟨rfl, rfl⟩) (fun _ _ _ h => by cases h) (fun _ _ _ => rfl)
  · intro _; exact (h hs).of_eq rfl rfl

theorem KeepsStore.endCapture (tag : Nat) (k : Option Nat) (h : TilesAgree s → Quiet s tag) : KeepsStore s (s.endCapture tag k) := by
  intro hs
  have hq := h hs
  have hq1 : Quiet ((s.releaseProgram tag).modProgram tag (fun g => { g with captureStep := none, failingTile := k })) tag :=
    hq.of_eq (by simp) (by simp)
  have hnone : ∀ g ∈ ((s.releaseProgram tag).modProgram tag (fun g => { g with captureStep := none, failingTile := k })).programs,
      g.tag = tag → g.captureStep = none := by
    intro g hg ht
    simp only [State.modProgram, List.mem_map] at hg
    obtain ⟨g0, h0, rfl⟩ := hg
    by_cases e : g0.tag = tag
    · rw [if_pos e]
    · rw [if_neg e] at ht; exact absurd ht e
  -- the release and the end of the capture step, then the program's next state
  refine ((KeepsStore.releaseProgram s tag).ends (fun hs hz => freed_releaseProgram hs hz tag) (FreesStore.trans
    (t := (s.releaseProgram tag).modProgram tag (fun g => { g with captureStep := none, failingTile := k }))
    (KeepsTiles.frees ?_ ?_) ?_ (fun h => h.of_plates rfl))) hs
  · apply KeepsTiles.modProgram_ends _ _ (fun g => { g with captureStep := none, failingTile := k }) (fun _ => rfl) (fun _ h => h) (fun _ => rfl)
    · intro _; exact (hq.of_eq (t := s.releaseProgram tag) (by simp) (by simp)).1
    · intro _; exact (hq.of_eq (t := s.releaseProgram tag) (by simp) (by simp)).2
  · intro hs hz hf
    exact hz.endProgram hs hf (fun g => { g with captureStep := none, failingTile := k }) (fun _ => ⟨rfl, rfl⟩)
      (fun _ _ _ h => h) (fun _ _ _ => rfl)
  · unfold State.endCapture
    simp only
    split
    · exact (KeepsStore.refl _).frees tag
    · split
      · refine KeepsTiles.frees (KeepsTiles.modProgram _ tag (fun g => { g with state := .merging }) (fun _ => rfl) ?_ ?_ ?_ ?_ ?_) ?_
        · intro g hg ht hw; cases hw
        · intro hs g hg ht hc; exact absurd (hnone g hg ht) hc
        · intro hs g hg ht hc; simp only at hc; rw [hnone g hg ht] at hc; cases hc
        · intro hs g hg ht hc; rw [hnone g hg ht] at hc; cases hc
        · intro hs g hg ht hc; rw [hnone g hg ht] at hc; cases hc
        · intro hs hz hf
          exact hz.endProgram hs hf (fun g => { g with state := .merging }) (fun _ => ⟨rfl, rfl⟩) (fun _ _ _ h => by cases h) hnone
      · exact FreesStore.finishProgram _ _ (fun _ => hq1)

/-! ### Tiles -/

theorem KeepsStore.failTile (id : TileId) : KeepsStore s (s.failTile id) := by
  unfold State.failTile; split
  · exact KeepsStore.refl _
  · rename_i t ht
    simp only
    apply KeepsStore.trans (t := (s.returnPages (t.output ++ t.raws.flatten)).modTile id (fun t =>
      { t with state := .failed, output := [], raws := [], fill := 0, reader := none, consume := false, stats := none }))
    · apply KeepsStore.clearTile s id t ht
      · intro _; rfl
      · intro _; exact ⟨rfl, rfl⟩
      · intro _; rfl
      · simp
    · exact (KeepsStore.failDrain _ _).trans (KeepsStore.turnEntry _ _ _)

theorem KeepsStore.captureFailed (id : TileId) (o : ProgramOutcome) (h : TilesAgree s → Quiet s id.tag) :
    KeepsStore s (s.captureFailed id o) := by
  intro hs
  refine (((KeepsStore.failTile s id).trans (KeepsStore.fixOutcome _ _ _)).trans (KeepsStore.endCapture _ _ _ ?_)) hs
  intro _; exact (h hs).of_eq (by simp) (by simp)

theorem KeepsStore.beginMerge (id : TileId) : KeepsStore s (s.beginMerge id) := by
  unfold State.beginMerge; split
  · exact KeepsStore.refl _
  · split
    · exact KeepsStore.refl _
    · rename_i g _ _ d _
      refine (KeepsStore.modTile s id (fun t => { t with state := .merging, writer := true, fill := 0, stats := t.stats.map (statsAtMerge (mergeContextOf g d id)) })
        (fun _ => ⟨rfl, rfl, rfl⟩) (by intro t h; cases h) (by intro t h; cases h)).trans ?_
      apply KeepsStore.same <;> rfl

theorem KeepsTiles.joinMerge (id : TileId) (d : Nat) : KeepsTiles s (s.joinMerge id d) := by
  have h1 : KeepsTiles s { s.modTile id (fun t =>
      { t with state := .mergeWait, stats := t.stats.map (fun x => { x with dose := d }) }) with
    mergeQueue := s.mergeQueue ++ [id] } := by
    have h0 := (KeepsStore.modTile s id (fun t => { t with state := .mergeWait, stats := t.stats.map (fun x => { x with dose := d }) })
      (fun _ => ⟨rfl, rfl, rfl⟩) (by intro t h; cases h) (by intro t h; cases h)).tiles
    refine KeepsTiles.trans h0 ?_
    intro hu; exact TilesAgree.same rfl rfl rfl rfl rfl rfl rfl hu
  unfold State.joinMerge; simp only; split
  · exact KeepsTiles.trans h1 (KeepsStore.beginMerge _ _).tiles
  · exact h1

theorem State.modProgram_modProgram (tag : Nat) (f g : Program → Program) (hf : ∀ x, (f x).tag = x.tag) :
    (s.modProgram tag f).modProgram tag g = s.modProgram tag (fun x => g (f x)) := by
  unfold State.modProgram
  simp only [List.map_map]
  congr 1
  apply List.map_congr_left
  intro x _
  simp only [Function.comp]
  by_cases h : x.tag = tag <;> simp [h, hf]

/-- The end of a capture step does not rest on the step. -/
theorem State.endCapture_clear (tag : Nat) (k : Option Nat) :
    (s.modProgram tag (fun g => { g with captureStep := none })).endCapture tag k = s.endCapture tag k := by
  have h1 : (s.modProgram tag (fun g => { g with captureStep := none })).releaseProgram tag =
      (s.releaseProgram tag).modProgram tag (fun g => { g with captureStep := none }) := by
    unfold State.releaseProgram
    have hp : (s.modProgram tag (fun g => { g with captureStep := none })).program? tag =
        (s.program? tag).map (fun g => { g with captureStep := none }) := by
      unfold State.program? State.modProgram
      induction s.programs with
      | nil => rfl
      | cons x l ih =>
        by_cases e : x.tag = tag
        · simp [e]
        · rw [List.map_cons, if_neg e, List.find?_cons, List.find?_cons]
          simpa [e] using ih
    rw [hp]
    cases s.program? tag with
    | none => rfl
    | some g =>
      simp only [Option.map_some, State.modProgram_plate]
      split
      · rw [State.modProgram_modProgram _ _ _ _ (by intro _; rfl), State.modProgram_modProgram _ _ _ _ (by intro _; rfl)]
      · have e : ∀ (r : Option Plate), (s.modProgram tag (fun g => { g with captureStep := none })).setPlate g.content.slot r =
            (s.setPlate g.content.slot r).modProgram tag (fun g => { g with captureStep := none }) := fun _ => by
          unfold State.setPlate State.modProgram; rfl
        rw [e, State.modProgram_modProgram _ _ _ _ (by intro _; rfl), State.modProgram_modProgram _ _ _ _ (by intro _; rfl)]
  unfold State.endCapture
  rw [h1, State.modProgram_modProgram _ _ _ _ (by intro _; rfl)]

/-- A tile joins the merge queue and its program leaves IN_UNIT (03 R65). -/
theorem Sizes.captured {s : State} (hz : Sizes s) (hs : TilesAgree s) (id : TileId) (d : Nat)
    (hg : ∃ g ∈ s.programs, g.captureStep = some .inUnit ∧ id.tag = g.tag ∧ id.index = g.nextTile)
    (f : Program → Program)
    (hf : ∀ g, (f g).tag = g.tag ∧ (f g).content = g.content ∧ (f g).state = g.state ∧
      ((f g).captureStep = none ∨ (f g).captureStep = some .storeWait)) :
    Sizes ((s.joinMerge id d).modProgram id.tag f) := by
  have hprog : (s.joinMerge id d).programs = s.programs := by simp
  obtain ⟨g, hg, hstep, htag, -⟩ := hg
  have hrun : ∀ x ∈ s.programs, x.captureStep ≠ none → x.state.counted = true := by
    intro x hx h; rw [(hs.current x hx h).1]; rfl
  have hone : ∀ x ∈ s.programs, x.captureStep ≠ none → x = g :=
    fun x hx h => Sizes.only hz hrun hx hg h (by rw [hstep]; simp)
  have ha : s.allocWaiting = none := by
    cases hr : s.allocWaiting with
    | none => rfl
    | some r =>
      obtain ⟨x, hx, a, -⟩ := hs.request r hr
      rw [hone x hx (by rw [a]; simp), hstep] at a; cases a
  have hq := hz.1.coming g hg (.inr hstep)
  refine ⟨⟨?_, ?_, ?_, ?_⟩, ?_⟩
  · have : (s.joinMerge id d).mergeQueue = s.mergeQueue ++ [id] := by
      unfold State.joinMerge; simp only; split
      · simp [State.modTile]
      · rfl
    show (s.joinMerge id d).mergeQueue.length ≤ 4
    rw [this, List.length_append, List.length_singleton]; omega
  · show ((s.joinMerge id d).programs.map (fun g => if g.tag = id.tag then f g else g)).Pairwise _
    rw [hprog, List.pairwise_map]
    refine List.Pairwise.imp_of_mem ?_ hz.1.order
    intro a b ha hb o hstep'
    have ho : a.state.counted = false := by
      by_cases e : b.tag = id.tag
      · exact o (by rw [hs.uniq hb hg (e.trans htag), hstep]; simp)
      · rw [if_neg e] at hstep'; exact o hstep'
    split
    · rw [(hf a).2.2.1]; exact ho
    · exact ho
  · intro h; exact absurd (by simpa using ha) h
  · intro x hx hc
    exfalso
    simp only [State.modProgram, hprog, List.mem_map] at hx
    obtain ⟨y, hy, rfl⟩ := hx
    by_cases e : y.tag = id.tag
    · rw [if_pos e] at hc
      rcases (hf y).2.2.2 with h | h <;> rw [h] at hc <;> simp at hc
    · rw [if_neg e] at hc
      have := hone y hy (by rcases hc with h | h <;> rw [h] <;> simp)
      exact e (by rw [this, htag])
  · apply hz.2.of
    · intro x hx hc
      refine .inl ⟨_, List.mem_map_of_mem (f := fun x => if x.tag = id.tag then f x else x) (by rw [hprog]; exact hx), ?_⟩
      split
      · exact ⟨(hf x).1, by rw [(hf x).2.1], by rw [(hf x).2.2.1]; exact hc⟩
      · exact ⟨rfl, rfl, hc⟩
    · intro i pl hpl
      exact .inr ⟨pl, by rw [State.modProgram_plate, State.plate_congr (s.joinMerge_rest id d).1] at hpl; exact hpl, List.Sublist.refl _⟩

theorem KeepsStore.captured (id : TileId) (d : Nat) (hq : TilesAgree s → Quiet s id.tag)
    (hg : TilesAgree s → ∃ g ∈ s.programs, g.captureStep = some .inUnit ∧ id.tag = g.tag ∧ id.index = g.nextTile) :
    KeepsStore s (s.captured id d) := by
  intro hs
  have hq := hq hs
  have hz := fun hz => Sizes.captured hz hs id d (hg hs)
  obtain ⟨g, hg, hstep, htag, hidx⟩ := hg hs
  have hj := KeepsTiles.joinMerge s id d hs
  generalize hu : s.joinMerge id d = u at *
  have hgu : g ∈ u.programs := by rw [← hu]; simpa using hg
  have hqu : Quiet u id.tag := by rw [← hu]; exact hq.of_eq (by simp) (by simp)
  have hone : TilesAgree u → ∀ g' ∈ u.programs, g'.tag = id.tag → g' = g := fun h g' hg' e => h.uniq hg' hgu (e.trans htag)
  -- any change that sets the next tile and the capture step of the program
  have key : ∀ f : Program → Program, (∀ x, (f x).tag = x.tag ∧ (f x).state = x.state ∧ (f x).nextTile = id.index + 1 ∧
      ((f x).captureStep = some .storeWait ∨ (f x).captureStep = x.captureStep)) → KeepsTiles u (u.modProgram id.tag f) := by
    intro f hf
    apply KeepsTiles.modProgram _ _ _ (fun x => (hf x).1)
    · intro x _ _ h; rw [(hf x).2.1] at h; exact h
    · intro h x hx ht _
      obtain rfl := hone h x hx ht
      obtain ⟨a, b⟩ := h.current x hx (by rw [hstep]; simp)
      refine ⟨(hf x).2.1.trans a, fun t ht' e => ?_⟩
      rw [(hf x).2.2.1]; have := b t ht' e; omega
    · intro h x hx ht _ t ht' e
      obtain rfl := hone h x hx ht
      obtain ⟨a, b⟩ := h.current x hx (by rw [hstep]; simp)
      rw [(hf x).2.2.1]; have := b t ht' e; omega
    · intro h x hx ht _ r hr e; exact absurd e (hqu.1 r hr)
    · intro h x hx ht _ c i a b c' e; exact absurd e (hqu.2 c i a b c')
  -- the end of the capture step, from the state in which the program has left it
  have fin : ∀ (f : Program → Program) (k : Option Nat), (∀ x, (f x).tag = x.tag ∧ (f x).content = x.content ∧
      (f x).state = x.state ∧ (f x).nextTile = id.index + 1 ∧ (f x).captureStep = x.captureStep) →
      TilesAgree ((u.modProgram id.tag f).endCapture id.tag k) ∧
      (PagesPlaced s → PagesPlaced ((u.modProgram id.tag f).endCapture id.tag k)) ∧
      (Sizes s → Sizes ((u.modProgram id.tag f).endCapture id.tag k)) := by
    intro f k hf
    have h1 := key f (fun x => ⟨(hf x).1, (hf x).2.2.1, (hf x).2.2.2.1, .inr (hf x).2.2.2.2⟩) hj.1
    have h2 := KeepsTiles.modProgram_ends (u.modProgram id.tag f) id.tag (fun g => { g with captureStep := none }) (fun _ => rfl)
      (fun _ h => h) (fun _ => rfl) (fun _ => (hqu.of_eq (t := u.modProgram id.tag f) rfl rfl).1)
      (fun _ => (hqu.of_eq (t := u.modProgram id.tag f) rfl rfl).2) h1.1
    have h3 := KeepsStore.endCapture ((u.modProgram id.tag f).modProgram id.tag (fun g => { g with captureStep := none })) id.tag k
      (fun _ => hqu.of_eq rfl rfl) h2.1
    rw [State.endCapture_clear] at h3
    refine ⟨h3.1, fun p => h3.2.1 (h2.2 (h1.2 (hj.2 p))), fun z => h3.2.2 ?_⟩
    rw [State.modProgram_modProgram _ _ _ _ (fun x => (hf x).1)]
    exact hz z (fun x => { f x with captureStep := none }) (fun x => ⟨(hf x).1, (hf x).2.1, (hf x).2.2.1, .inl rfl⟩)
  unfold State.captured
  simp only [hu]
  split
  · rename_i hno
    have := List.find?_eq_none.1 hno _ (List.mem_map_of_mem (f := fun x => if x.tag = id.tag then _ else x) hgu)
    rw [if_pos htag.symm] at this
    simp [htag] at this
  · split
    · exact fin _ _ (fun x => ⟨rfl, rfl, rfl, rfl, rfl⟩)
    · split
      · rw [State.modProgram_modProgram _ _ _ _ (by intro _; rfl)]
        have := key (fun g => { g with tilesInMerge := g.tilesInMerge + 1, nextTile := id.index + 1, captureStep := some .storeWait })
          (fun x => ⟨rfl, rfl, rfl, .inl rfl⟩) hj.1
        exact ⟨this.1, fun p => this.2 (hj.2 p), fun z => hz z _ (fun x => ⟨rfl, rfl, rfl, .inr rfl⟩)⟩
      · unfold State.fixOutcome
        rw [State.modProgram_modProgram _ _ _ _ (by intro _; rfl)]
        exact fin _ _ (fun x => ⟨rfl, rfl, rfl, rfl, rfl⟩)

/-! ### The exposure unit -/

theorem KeepsStore.unitIdle : KeepsStore s s.unitIdle := by
  unfold State.unitIdle
  apply KeepsStore.trans (t := { s with unit := { s.unit with state := .idle, context := none, timer := .stopped } })
  · apply KeepsStore.unit
    · intro _ c id h; cases h
    · intro _ c h; cases h
    · intro _ _; rfl
  · apply KeepsStore.same <;> rfl

theorem KeepsStore.abandon : KeepsStore s s.abandon := by
  unfold State.abandon; split
  · exact KeepsStore.unitIdle _
  · exact (KeepsStore.stopTake _).trans (KeepsStore.unitIdle _)
  · rename_i c h1 h2
    have : KeepsStore s (s.modContext (fun c => { c with disposal := true })) := by
      unfold State.modContext
      apply KeepsStore.unit
      · intro _ c' id h _ hd; simp [h2] at h; rw [← h] at hd; cases hd
      · intro _ c' _ _; exact h1
      · intro _ hi; rw [h1] at hi; cases hi
    split
    · exact KeepsStore.unitIdle _
    · exact KeepsStore.unitIdle _
    · exact this
    · exact this
  · exact KeepsStore.refl _

theorem KeepsStore.startMove (c : ExposureContext) (hd : c.disposal = false) (h : TilesAgree s → ∀ id, c.kind = .tile id →
    ∃ g ∈ s.programs, g.captureStep = some .inUnit ∧ id.tag = g.tag ∧ id.index = g.nextTile) : KeepsStore s (s.startMove c) := by
  unfold State.startMove
  refine KeepsStore.trans ?_ (KeepsStore.emit _ _)
  apply KeepsStore.unit
  · intro hs c' id e hk _; cases e; exact h hs id hk
  · intro hs c' e hdis; cases e; simp [hd] at hdis
  · intro _ hi; cases hi

theorem KeepsStore.resendMove (c : ExposureContext) (hc : s.unit.context = some c) : KeepsStore s (s.resendMove c) := by
  apply KeepsStore.same <;> simp [State.resendMove, hc]

/-- The context in hand is in no disposal. -/
def InHand (s : State) : Prop := ∀ c, s.unit.context = some c → c.disposal = false

theorem KeepsStore.startTake (h : TilesAgree s → InHand s) : KeepsStore s s.startTake := by
  unfold State.startTake; split
  · exact KeepsStore.refl _
  · split
    · exact KeepsStore.refl _
    · rename_i c hc e he
      refine KeepsStore.trans ?_ (KeepsStore.emit _ _)
      refine KeepsStore.trans (t := { s with unit := { s.unit with state := .exposing, takeNumber := s.unit.takeNumber + 1, timer := .lamp e.time } }) ?_ ?_
      · apply KeepsStore.unit
        · intro hs c' id; exact hs.unitTile c' id
        · intro hs c' h1 h2; rw [h hs c' h1] at h2; cases h2
        · intro _ hi; cases hi
      · apply KeepsStore.same <;> rfl

theorem Quiet.idle {s : State} (tag : Nat) (ha : ∀ r, s.allocWaiting = some r → r.id.tag ≠ tag) : Quiet s.unitIdle tag :=
  ⟨ha, fun c id h => by cases h⟩

/-- The program of the tile in the unit's hand waits for no pages. -/
theorem TilesAgree.inHand {s : State} (h : TilesAgree s) {c : ExposureContext} {id : TileId} (hc : s.unit.context = some c)
    (hk : c.kind = .tile id) (hd : c.disposal = false) : Quiet s.unitIdle id.tag := by
  apply Quiet.idle
  intro r hr e
  obtain ⟨g, hg, a, b, -⟩ := h.unitTile c id hc hk hd
  obtain ⟨g', hg', a', b', -⟩ := h.request r hr
  have := h.uniq hg hg' (by rw [← b, ← b', e])
  rw [this, a'] at a; cases a

/-! ### What the unit's clients do with its reports -/

/-- What is told of the tile in the unit's hand fails it (04 R86, R88, R94). -/
theorem KeepsStore.tileFails {c : ExposureContext} {id : TileId} (hc : s.unit.context = some c) (hk : c.kind = .tile id)
    (hd : TilesAgree s → c.disposal = false) (o : ProgramOutcome) : KeepsStore s (s.unitIdle.captureFailed id o) := by
  intro hs
  exact ((KeepsStore.unitIdle s).trans (KeepsStore.captureFailed _ _ _ (fun _ => hs.inHand hc hk (hd hs)))) hs

theorem KeepsStore.moveFails {c : ExposureContext} (hc : s.unit.context = some c) (hd : TilesAgree s → c.disposal = false) :
    KeepsStore s (s.moveFails c) := by
  unfold State.moveFails; split
  · rename_i id hk; exact KeepsStore.tileFails s hc hk hd _
  · exact (KeepsStore.unitIdle s).trans (KeepsStore.marginEnds _ _)
  · exact (KeepsStore.unitIdle s).trans (KeepsStore.calibrationFails _ _)
  · exact (KeepsStore.unitIdle s).trans (KeepsStore.calibrationFails _ _)

theorem KeepsStore.sensorFails {c : ExposureContext} (hc : s.unit.context = some c) (hd : TilesAgree s → c.disposal = false) :
    KeepsStore s (s.sensorFails c) := by
  unfold State.sensorFails; split
  · rename_i id hk; exact KeepsStore.tileFails s hc hk hd _
  · exact (KeepsStore.unitIdle s).trans (KeepsStore.marginEnds _ _)
  · exact (KeepsStore.unitIdle s).trans (KeepsStore.calibrationFails _ _)
  · exact (KeepsStore.unitIdle s).trans (KeepsStore.calibrationFails _ _)

theorem KeepsStore.modContext_same (f : ExposureContext → ExposureContext)
    (hf : ∀ c, (f c).kind = c.kind ∧ (f c).disposal = c.disposal) : KeepsStore s (s.modContext f) := by
  apply KeepsStore.same <;> simp [State.modContext]
  cases s.unit.context <;> simp [hf]

theorem InHand.modContext {s : State} (h : InHand s) {f : ExposureContext → ExposureContext} (hf : ∀ c, (f c).disposal = c.disposal) :
    InHand (s.modContext f) := by
  intro c hc
  simp only [State.modContext, Option.map_eq_some_iff] at hc
  obtain ⟨c0, h0, rfl⟩ := hc
  rw [hf]; exact h c0 h0

theorem InHand.of_unit {s t : State} (h : InHand s) (e : t.unit = s.unit) : InHand t := by
  unfold InHand; rw [e]; exact h

theorem KeepsStore.afterTileCharge {c : ExposureContext} {id : TileId} (hc : s.unit.context = some c) (hk : c.kind = .tile id)
    (hd : c.disposal = false) (cost : Nat) (a : ChargeAnswer) : KeepsStore s (s.afterTileCharge id cost a) := by
  cases a
  · have hin : InHand s := by intro c' h'; rw [hc] at h'; cases h'; exact hd
    exact (KeepsStore.modContext_same s (fun c => { c with doseCharged := c.doseCharged + cost }) (fun _ => ⟨rfl, rfl⟩)).trans
      (KeepsStore.startTake _ (fun _ => hin.modContext (fun _ => rfl)))
  · exact KeepsStore.tileFails s hc hk (fun _ => hd) _
  · exact KeepsStore.tileFails s hc hk (fun _ => hd) _

theorem KeepsStore.afterMarginCharge (hin : InHand s) (a : ChargeAnswer) : KeepsStore s (s.afterMarginCharge a) := by
  cases a
  · exact (KeepsStore.regPhase s _).trans (KeepsStore.startTake _ (fun _ => hin.of_unit rfl))
  · exact (KeepsStore.unitIdle s).trans (KeepsStore.marginEnds _ _)
  · exact KeepsStore.unitIdle s

theorem KeepsStore.beginExposure (hin : TilesAgree s → InHand s) : KeepsStore s s.beginExposure := by
  intro hs
  have hin := hin hs
  unfold State.beginExposure
  split
  · exact KeepsStore.refl _ hs
  · rename_i c hc
    split
    · exact KeepsStore.refl _ hs
    · rename_i e he
      split
      · rename_i id hk
        have hu : (s.chargeTile id.tag e.cost false).2.unit = s.unit := by simp
        exact ((KeepsStore.chargeTile s id.tag e.cost false).trans
          (KeepsStore.afterTileCharge _ (by rw [hu]; exact hc) hk (hin c hc) _ _)) hs
      · exact ((KeepsStore.chargeMargin s e.cost).trans (KeepsStore.afterMarginCharge _ (hin.of_unit (by simp)) _)) hs
      · exact KeepsStore.startTake s (fun _ => hin) hs
      · exact KeepsStore.startTake s (fun _ => hin) hs

theorem KeepsStore.retake {c : ExposureContext} (hc : s.unit.context = some c) (hd : c.disposal = false) (e : Exposure) :
    KeepsStore s (s.retake c e) := by
  have hin : InHand s := by intro c' h'; rw [hc] at h'; cases h'; exact hd
  unfold State.retake; split
  · rename_i id hk
    have hu : (s.chargeTile id.tag e.cost true).2.unit = s.unit := by simp
    apply (KeepsStore.chargeTile s id.tag e.cost true).trans
    dsimp only
    by_cases hgr : (s.chargeTile id.tag e.cost true).1 = .granted
    · rw [if_pos hgr]
      refine (KeepsStore.countRetake _).trans (KeepsStore.afterTileCharge (c := { c with retakes := c.retakes + 1 }) _ ?_ hk hd _ _)
      simp [State.countRetake, State.modContext, hc]
    · rw [if_neg hgr]
      exact KeepsStore.afterTileCharge _ (by rw [hu]; exact hc) hk hd _ _
  · apply (KeepsStore.chargeMargin s e.cost).trans
    have h1 : InHand (s.chargeMargin e.cost).2 := hin.of_unit (by simp)
    dsimp only
    by_cases hgr : (s.chargeMargin e.cost).1 = .granted
    · rw [if_pos hgr]
      refine ((KeepsStore.countRetake _).trans (KeepsStore.countMarginRetake _)).trans (KeepsStore.afterMarginCharge _ ?_ _)
      exact InHand.of_unit (InHand.modContext h1 (f := fun c => { c with retakes := c.retakes + 1 }) (fun _ => rfl)) rfl
    · rw [if_neg hgr]; exact KeepsStore.afterMarginCharge _ h1 _
  · exact (KeepsStore.countRetake s).trans (KeepsStore.startTake _ (fun _ => hin.modContext (fun _ => rfl)))
  · exact (KeepsStore.countRetake s).trans (KeepsStore.startTake _ (fun _ => hin.modContext (fun _ => rfl)))

theorem KeepsStore.takeFaulty : KeepsStore s s.takeFaulty := by
  unfold State.takeFaulty; split
  · exact KeepsStore.refl _
  · rename_i c hc
    split
    · exact KeepsStore.unitIdle s
    · rename_i hd
      have hd : c.disposal = false := by simpa using hd
      split
      · split
        · exact KeepsStore.retake s hc hd _
        · exact KeepsStore.refl _
      · exact KeepsStore.sensorFails s hc (fun _ => hd)

theorem KeepsStore.startLight (k : CalContext) : KeepsStore s (s.startLight k) := by
  have e : s.startLight k = ({ { s with unit := { s.unit with context := some (calContextOf .calLight k), state := .exposing, takeNumber := s.unit.takeNumber + 1, timer := .lamp k.tRef } } with
      calContext := some k, lamp := { level := k.level, gateOpen := true } } : State).emit (.start (s.unit.takeNumber + 1) 0 k.width 16) := by
    simp [State.startLight, State.startTake, ExposureContext.exposure?, calContextOf]
  rw [e]
  refine KeepsStore.trans ?_ (KeepsStore.emit _ _)
  refine KeepsStore.trans (KeepsStore.unit s { s.unit with context := some (calContextOf .calLight k), state := .exposing, takeNumber := s.unit.takeNumber + 1, timer := .lamp k.tRef } ?_ ?_ ?_) ?_
  · intro _ c id h hk; cases h; cases hk
  · intro _ c h hd; cases h; cases hd
  · intro _ hi; cases hi
  · apply KeepsStore.same <;> rfl

theorem KeepsStore.darkFrameDone (k : CalContext) : KeepsStore s (s.darkFrameDone k) := by
  unfold State.darkFrameDone; split
  · exact KeepsStore.endCalibration _ _ _ _
  · exact KeepsStore.startLight _ _

theorem KeepsStore.interruptCalibration : KeepsStore s s.interruptCalibration := by
  unfold State.interruptCalibration; split
  · exact KeepsStore.refl _
  · simp only
    split
    · split
      · exact (KeepsStore.abandon _).trans (KeepsStore.endCalibration _ _ _ _)
      · exact KeepsStore.endCalibration _ _ _ _
    · exact KeepsStore.endCalibration _ _ _ _

theorem KeepsStore.workDone {c : ExposureContext} (hc : (s.unit.context.map (fun c => (c.kind, c.disposal))) = some (c.kind, false)) :
    KeepsStore s (s.workDone c) := by
  unfold State.workDone; split
  · rename_i id hk
    intro hs
    rw [Option.map_eq_some_iff] at hc
    obtain ⟨c0, hc0, e⟩ := hc
    simp only [Prod.mk.injEq] at e
    refine ((KeepsStore.unitIdle s).trans (KeepsStore.captured _ _ _ (fun _ => hs.inHand hc0 (e.1.trans hk) e.2) ?_)) hs
    intro _
    exact hs.unitTile c0 id hc0 (e.1.trans hk) e.2
  · exact (KeepsStore.unitIdle s).trans (KeepsStore.regPhase _ _)
  · split
    · exact (KeepsStore.unitIdle s).trans (KeepsStore.darkFrameDone _ _)
    · exact KeepsStore.unitIdle s
  · split
    · exact (KeepsStore.unitIdle s).trans (KeepsStore.lightFrameDone _ _)
    · exact KeepsStore.unitIdle s

theorem KeepsStore.takeGood {c : ExposureContext} (hc : s.unit.context = some c) (hd : c.disposal = false) :
    KeepsStore s (s.takeGood c) := by
  have hin : InHand s := by intro c' h'; rw [hc] at h'; cases h'; exact hd
  unfold State.takeGood; split
  · exact (KeepsStore.modContext_same s (fun c => { c with current := c.current + 1, retakes := 0 }) (fun _ => ⟨rfl, rfl⟩)).trans
      (KeepsStore.beginExposure _ (fun _ => hin.modContext (fun _ => rfl)))
  · apply KeepsStore.workDone; rw [hc]; simp [hd]

theorem KeepsStore.takeLine {c : ExposureContext} (hc : s.unit.context = some c) (samples : List Sample) :
    KeepsStore s (s.takeLine c samples) := by
  unfold State.takeLine
  simp only
  have h1 : KeepsStore s (if c.disposal then s else s.storeLine c c.nextLine samples) := by
    split
    · exact KeepsStore.refl _
    · exact KeepsStore.storeLine _ _ _ _
  have hu : (if c.disposal then s else s.storeLine c c.nextLine samples).unit = s.unit := by split <;> simp
  generalize (if c.disposal then s else s.storeLine c c.nextLine samples) = u at *
  have h2 : KeepsStore u { u with unit := { u.unit with context := some { c with nextLine := c.nextLine + 1 }, timer := .line 100 } } := by
    apply KeepsStore.same <;> simp [hu, hc]
  split
  · split
    · exact (h1.trans h2).trans (KeepsStore.unitIdle _)
    · rename_i hd
      exact (h1.trans h2).trans (KeepsStore.takeGood _ rfl (by simpa using hd))
  · exact h1.trans h2

/-! ### The tile in hand, its pages and its program's end -/

theorem running_mem {s : State} {g : Program} (h : s.running = some g) : g ∈ s.programs ∧ g.state = .running :=
  ⟨List.mem_of_find?_eq_some h, by simpa using List.find?_some h⟩

theorem KeepsStore.handTile : KeepsStore s s.handTile := by
  unfold State.handTile; split
  · rename_i g c hg hc
    split
    · rename_i d hd
      split
      · rename_i h
        intro hs
        have hm := (running_mem hg).1
        -- the program's step comes first: the unit then holds the tile of a program in IN_UNIT
        have e : (s.startMove (tileContext s g c d)).modProgram g.tag (fun g => { g with captureStep := some .inUnit }) =
            (s.modProgram g.tag (fun g => { g with captureStep := some .inUnit })).startMove (tileContext s g c d) := rfl
        rw [e]
        have hone : ∀ g' ∈ s.programs, g'.tag = g.tag → g' = g := fun g' hg' e => hs.uniq hg' hm e
        refine (((KeepsTiles.modProgram s g.tag (fun g => { g with captureStep := some .inUnit }) (fun _ => rfl) (fun g' _ _ h => h)
          ?_ ?_ ?_ ?_).store ?_).trans (KeepsStore.startMove _ _ rfl ?_)) hs
        · intro _ g' hg' ht _
          obtain rfl := hone g' hg' ht
          exact hs.current g' hg' (by rw [h.1]; simp)
        · intro _ g' hg' ht hc; cases hc
        · intro _ g' hg' ht hc; obtain rfl := hone g' hg' ht; rw [h.1] at hc; cases hc
        · intro _ g' hg' ht hc; obtain rfl := hone g' hg' ht; rw [h.1] at hc; cases hc
        · intro hs hz
          apply hz.modProgram hs.tags g.tag (fun g => { g with captureStep := some .inUnit }) (fun _ => ⟨rfl, rfl⟩) (fun _ _ _ h => h)
            (.inl (fun _ _ _ h => h))
          · intro g' hg' ht _
            obtain rfl := hone g' hg' ht
            left; rw [h.1]; simp
          · intro _ _ _ _; exact hz.1.coming g hm (.inl h.1)
        · intro _ id hid
          cases hid
          refine ⟨{ g with captureStep := some .inUnit }, ?_, rfl, rfl, rfl⟩
          simp only [State.modProgram, List.mem_map]
          exact ⟨g, hm, by simp⟩
      · exact KeepsStore.refl _
    · exact KeepsStore.refl _
  · exact KeepsStore.refl _

theorem KeepsStore.requestAllocation : KeepsStore s s.requestAllocation := by
  unfold State.requestAllocation; split
  · exact KeepsStore.refl _
  · rename_i g hg
    split
    · exact KeepsStore.refl _
    · rename_i d hd
      split
      · rename_i h
        intro hs
        refine ⟨⟨hs.ids, hs.failed, hs.complete, hs.tags, hs.counter, hs.waiting, hs.current, hs.asking, ?_, hs.unitTile, hs.disposal, hs.idle⟩, (fun h => h),
          fun hz => ⟨⟨hz.1.queue, hz.1.order, fun _ => h.2.2, hz.1.coming⟩, hz.2⟩⟩
        intro r hr; cases hr
        exact ⟨g, (running_mem hg).1, h.1, rfl, rfl⟩
      · exact KeepsStore.refl _

theorem takeChains_flatten (size : Nat) (k : Nat) (l : List Nat) :
    (takeChains size k l).flatten = l.take (k * size) := by
  induction k generalizing l with
  | zero => simp [takeChains]
  | succ k ih =>
    rw [takeChains, List.flatten_cons, ih, Nat.succ_mul, Nat.add_comm, List.take_add]

theorem KeepsStore.grantWaiting : KeepsStore s s.grantWaiting := by
  unfold State.grantWaiting; split
  · exact KeepsStore.refl _
  · rename_i r hr
    split
    · rename_i hcan
      refine KeepsStore.trans ?_ (KeepsStore.handTile _)
      intro hs
      obtain ⟨g, hg, hstep, htag, hidx⟩ := hs.request r hr
      have hone : ∀ g' ∈ s.programs, g'.tag = r.id.tag → g' = g := fun g' hg' e => hs.uniq hg' hg (e.trans htag)
      have hfresh : ∀ t ∈ s.directory, t.id ≠ r.id := by
        intro t ht e
        have := hs.asking g hg hstep t ht (by rw [e]; exact htag)
        rw [e] at this; omega
      let f : Program → Program := fun g => { g with captureStep := some .unitWait }
      have hm : ∀ x ∈ s.programs.map (fun x => if x.tag = r.id.tag then f x else x), ∃ y ∈ s.programs,
          x.tag = y.tag ∧ x.state = y.state ∧ x.nextTile = y.nextTile ∧ ((y = g ∧ x.captureStep = some .unitWait) ∨ (y.tag ≠ g.tag ∧ x = y)) := by
        intro x hx
        rw [List.mem_map] at hx
        obtain ⟨y, hy, rfl⟩ := hx
        refine ⟨y, hy, ?_⟩
        by_cases e : y.tag = r.id.tag
        · rw [if_pos e]; exact ⟨rfl, rfl, rfl, .inl ⟨hone y hy e, rfl⟩⟩
        · rw [if_neg e]; exact ⟨rfl, rfl, rfl, .inr ⟨by rw [← htag]; exact e, rfl⟩⟩
      have hd : ∀ t ∈ s.directory ++ [grantedEntry r s.freePages], t ∈ s.directory ∨ t = grantedEntry r s.freePages := by
        intro t ht; simpa using ht
      refine ⟨?_, ?_⟩
      · constructor
        · simp only [State.grant, State.modProgram, List.map_append, List.map_cons, List.map_nil]
          rw [List.nodup_append]
          refine ⟨hs.ids, by simp, ?_⟩
          intro a ha b hb
          simp only [List.mem_map] at ha
          obtain ⟨t, ht, rfl⟩ := ha
          simp only [List.mem_cons, List.not_mem_nil, or_false] at hb
          subst hb; exact hfresh t ht
        · intro t ht hst
          rcases hd t ht with ht | rfl
          · exact hs.failed t ht hst
          · cases hst
        · intro t ht hst
          rcases hd t ht with ht | rfl
          · exact hs.complete t ht hst
          · cases hst
        · have : ((s.grant r).modProgram r.id.tag f).programs.map (·.tag) = s.programs.map (·.tag) := map_if _ _ _ _ (fun _ _ _ => rfl)
          exact this ▸ hs.tags
        · exact hs.counter
        · intro x hx hw t ht
          obtain ⟨y, hy, e1, e2, e3, ⟨rfl, e4⟩ | ⟨e4, rfl⟩⟩ := hm x hx
          · have := (hs.current y hg (by rw [hstep]; simp)).1
            rw [e2, this] at hw; cases hw
          · rcases hd t ht with ht | rfl
            · exact hs.waiting _ hy hw t ht
            · intro e; exact e4 (by rw [← e, ← htag]; rfl)
        · intro x hx hc
          obtain ⟨y, hy, e1, e2, e3, ⟨rfl, e4⟩ | ⟨e4, rfl⟩⟩ := hm x hx
          · refine ⟨e2.trans (hs.current y hg (by rw [hstep]; simp)).1, ?_⟩
            intro t ht e
            rw [e3]
            rcases hd t ht with ht | rfl
            · exact (hs.current y hg (by rw [hstep]; simp)).2 t ht (e.trans e1)
            · exact Nat.le_of_eq hidx
          · refine ⟨(hs.current _ hy hc).1, ?_⟩
            intro t ht e
            rcases hd t ht with ht | rfl
            · exact (hs.current _ hy hc).2 t ht e
            · exact absurd (e.symm.trans htag) e4
        · intro x hx hc t ht e
          obtain ⟨y, hy, e1, e2, e3, ⟨rfl, e4⟩ | ⟨e4, rfl⟩⟩ := hm x hx
          · rw [e4] at hc; cases hc
          · rcases hd t ht with ht | rfl
            · exact hs.asking _ hy hc t ht e
            · exact absurd (e.symm.trans htag) e4
        · intro r' hr'; cases hr'
        · intro c id h1 h2 h3
          obtain ⟨g', hg', a, b, d⟩ := hs.unitTile c id h1 h2 h3
          refine ⟨_, List.mem_map_of_mem (f := fun x => if x.tag = r.id.tag then f x else x) hg', ?_⟩
          have : g'.tag ≠ r.id.tag := by
            intro e; have := hone g' hg' e; rw [this, hstep] at a; cases a
          rw [if_neg this]; exact ⟨a, b, d⟩
        · exact hs.disposal
        · exact hs.idle
      · refine ⟨?_, ?_⟩
        rotate_left
        · intro hz
          have hg1 : Sizes (s.grant r) := by
            refine Sizes.shrink (s := s) ?_ ?_ ?_ ?_ hz
            · rfl
            · exact Nat.le_refl _
            · exact .inr rfl
            · rfl
          apply hg1.modProgram hs.tags r.id.tag f (fun _ => ⟨rfl, rfl⟩) (fun _ _ _ h => h) (.inl (fun _ _ _ h => h))
          · intro g' hg' ht _
            obtain rfl := hone g' hg' ht
            left; rw [hstep]; simp
          · intro _ _ _ _; exact hz.1.asked (by rw [hr]; simp)
        intro hp
        unfold PagesPlaced at *
        refine List.Perm.trans ?_ hp
        simp only [State.grant, State.modProgram, List.flatMap_append, List.flatMap_cons, List.flatMap_nil, List.flatten_append, List.append_nil]
        have hch : ((grantedEntry r s.freePages).chains).flatten = s.freePages.take r.wanted := by
          simp only [TileEntry.chains, grantedEntry, List.flatten_cons, takeChains_flatten, AllocRequest.wanted]
          rw [Nat.add_mul, Nat.one_mul, List.take_add]
        rw [hch]
        rw [← List.append_assoc]
        refine List.perm_append_comm.trans ?_
        rw [← List.append_assoc]
        apply List.Perm.append_right
        rw [List.take_append_drop]
    · exact KeepsStore.refl _

theorem KeepsStore.tryAllocation : KeepsStore s s.tryAllocation :=
  (KeepsStore.requestAllocation s).trans (KeepsStore.grantWaiting _)

theorem KeepsStore.handMargin : KeepsStore s s.handMargin := by
  unfold State.handMargin; split
  · split
    · refine KeepsStore.trans ?_ (KeepsStore.startMove _ _ rfl ?_)
      · apply KeepsStore.same <;> rfl
      · intro _ id h; cases h
    · exact KeepsStore.refl _
  · exact KeepsStore.refl _

theorem KeepsStore.startRegistration (i : Nat) (q : Option Port) : KeepsStore s (s.startRegistration i q) := by
  unfold State.startRegistration; split
  · exact KeepsStore.endRegistration _ _ _ _ _
  · simp only; split
    · refine KeepsStore.trans ?_ (KeepsStore.handMargin _)
      apply KeepsStore.same <;> rfl
    · exact KeepsStore.endRegistration _ _ _ _ _

theorem KeepsStore.offerUnit : KeepsStore s s.offerUnit := (KeepsStore.handTile s).trans (KeepsStore.handMargin _)

/-- The tile in hand is given up (03 R66, R70): `g` is a program of the queue. -/
theorem KeepsStore.giveUpTile {g : Program} (hg : g ∈ s.programs) (b : Bool) : KeepsStore s (s.giveUpTile g b) := by
  intro hs
  have hone : ∀ g' ∈ s.programs, g'.tag = g.tag → g' = g := fun g' hg' e => hs.uniq hg' hg e
  unfold State.giveUpTile
  split
  · rename_i hstep
    have hq : Quiet { s with allocWaiting := none } g.tag := by
      refine ⟨(fun r h => by cases h), ?_⟩
      intro c id h1 h2 h3 e
      obtain ⟨g', hg', a, b, -⟩ := hs.unitTile c id h1 h2 h3
      have := hone g' hg' (b.symm.trans e); rw [this, hstep] at a; cases a
    refine KeepsStore.trans (t := { s with allocWaiting := none }) ?_ (KeepsStore.endCapture _ _ _ (fun _ => hq)) hs
    intro hs
    exact ⟨⟨hs.ids, hs.failed, hs.complete, hs.tags, hs.counter, hs.waiting, hs.current, hs.asking, (fun r h => by cases h), hs.unitTile, hs.disposal, hs.idle⟩, (fun h => h),
      Sizes.shrink rfl (Nat.le_refl _) (.inr rfl) rfl⟩
  · rename_i hstep
    have hq : Quiet s g.tag := hs.quiet (fun g' hg' e => by rw [hone g' hg' e, hstep]; simp)
    exact ((KeepsStore.failTile s _).trans (KeepsStore.endCapture _ _ _ (fun _ => hq.of_eq (by simp) (by simp)))) hs
  · rename_i hstep
    split
    · exact KeepsStore.refl _ hs
    · have halloc : ∀ r, s.allocWaiting = some r → r.id.tag ≠ g.tag := by
        intro r hr e
        obtain ⟨g', hg', a, b, -⟩ := hs.request r hr
        have := hone g' hg' (b.symm.trans e); rw [this, hstep] at a; cases a
      have hunit : ∀ c id, s.unit.context = some c → c.kind = .tile id → c.disposal = false → id.tag = g.tag →
          id = { tag := g.tag, index := g.nextTile } := by
        intro c id h1 h2 h3 e
        obtain ⟨g', hg', a, b, d⟩ := hs.unitTile c id h1 h2 h3
        have := hone g' hg' (b.symm.trans e); rw [this] at b d
        cases id; simp_all
      have hq : Quiet (if s.holdsTile { tag := g.tag, index := g.nextTile } then s.abandon else s) g.tag := by
        split
        · rename_i hh
          refine ⟨by simpa using halloc, ?_⟩
          intro c id h1 h2 h3
          exfalso
          simp only [State.holdsTile] at hh
          cases hc : s.unit.context with
          | none => rw [hc] at hh; cases hh
          | some c0 =>
            rw [hc] at hh
            simp only [Bool.and_eq_true, decide_eq_true_eq] at hh
            unfold State.abandon at h1
            rw [hc] at h1
            cases hst : s.unit.state <;> rw [hst] at h1
            · rw [hs.idle hst] at hc; cases hc
            · cases h1
            · cases h1
            · simp only [hh.1, State.modContext, hc, Option.map_some] at h1
              cases h1; cases h3
        · rename_i hh
          refine ⟨halloc, ?_⟩
          intro c id h1 h2 h3 e
          have := hunit c id h1 h2 h3 e
          apply hh
          simp [State.holdsTile, h1, h2, h3, this]
      have h1 : KeepsStore s (if s.holdsTile { tag := g.tag, index := g.nextTile } then s.abandon else s) := by
        split
        · exact KeepsStore.abandon _
        · exact KeepsStore.refl _
      exact ((h1.trans (KeepsStore.failTile _ _)).trans (KeepsStore.endCapture _ _ _ (fun _ => hq.of_eq (by simp) (by simp)))) hs
  · exact KeepsStore.refl _ hs

/-! ### The staging unit -/

theorem KeepsStore.callPlate (i tag : Nat) : KeepsStore s (s.callPlate i tag) :=
  (KeepsStore.modPlate s i (fun pl => { pl with state := .called }) (fun _ => rfl)).trans (KeepsStore.issueNotice _ _ _)
theorem KeepsStore.returnPlate (i w : Nat) : KeepsStore s (s.returnPlate i w) :=
  (KeepsStore.modPlate s i (fun pl => { pl with state := .releasing }) (fun _ => rfl)).trans (KeepsStore.issueNotice _ _ _)

/-- A program that waits for its start is in no capture step. -/
theorem TilesAgree.waits {s : State} (h : TilesAgree s) {g : Program} (hg : g ∈ s.programs) (hr : g.state ≠ .running) :
    g.captureStep = none := by
  cases hc : g.captureStep with
  | none => rfl
  | some c => exact absurd (h.current g hg (by rw [hc]; simp)).1 hr

theorem TilesAgree.quietOf {s : State} (h : TilesAgree s) {g : Program} (hg : g ∈ s.programs) (hr : g.state ≠ .running) :
    Quiet s g.tag :=
  h.quiet (fun g' hg' e => by rw [h.uniq hg' hg e, h.waits hg hr]; simp)

theorem ProgramState.counted_of_waiting {st : ProgramState} (h : st.waiting = true) : st.counted = true := by
  cases st <;> first | rfl | cases h

theorem KeepsStore.headWaits {g : Program} (hg : g ∈ s.programs) (hw : g.state.waiting = true) (st : ProgramState)
    (hst : st.counted = true) :
    KeepsStore s (s.headWaits g.tag st) := by
  intro hs
  have hr : g.state ≠ .running := by intro e; rw [e] at hw; cases hw
  have hone : ∀ g' ∈ s.programs, g'.tag = g.tag → g' = g := fun g' hg' e => hs.uniq hg' hg e
  have hnone := hs.waits hg hr
  refine (KeepsTiles.modProgram s g.tag (fun g => { g with state := st }) (fun _ => rfl) ?_ ?_ ?_ ?_ ?_).store ?_ hs
  · intro g' hg' e _; rw [hone g' hg' e]; exact hw
  · intro _ g' hg' e hc; rw [hone g' hg' e] at hc; exact absurd hnone hc
  · intro _ g' hg' e hc; rw [hone g' hg' e] at hc; simp only at hc; rw [hnone] at hc; cases hc
  · intro _ g' hg' e hc; rw [hone g' hg' e, hnone] at hc; cases hc
  · intro _ g' hg' e hc; rw [hone g' hg' e, hnone] at hc; cases hc
  · intro hs hz
    apply hz.modProgram hs.tags g.tag (fun g => { g with state := st }) (fun _ => ⟨rfl, rfl⟩)
    · intro g' hg' e _; rw [hone g' hg' e]; exact ProgramState.counted_of_waiting hw
    · exact .inl (fun _ _ _ _ => hst)
    · intro g' hg' e hc; rw [hone g' hg' e] at hc; exact absurd hnone hc
    · intro g' hg' e hc; rw [hone g' hg' e] at hc; simp only [hnone] at hc; simp at hc

theorem KeepsStore.endAtStart {g : Program} (hg : g ∈ s.programs) (hw : g.state.waiting = true) (o : ProgramOutcome)
    (k : Option Nat) : KeepsStore s (s.endAtStart g.tag o k) := by
  intro hs
  have hr : g.state ≠ .running := by intro e; rw [e] at hw; cases hw
  have hq := hs.quietOf hg hr
  unfold State.endAtStart
  refine ((KeepsStore.modProgram_key s g.tag (fun g => { g with outcome := some o, refusedTile := k, generation := some s.cal.generation })
    (fun _ => rfl)).trans ((KeepsStore.releaseProgram _ _).ends (fun hs hz => freed_releaseProgram hs hz _)
      (FreesStore.finishProgram _ _ ?_))) hs
  intro _; exact hq.of_eq (by simp) (by simp)

theorem KeepsStore.beginProgram {g : Program} (hh : s.headProgram = some g) (hg : g ∈ s.programs) (hw : g.state.waiting = true)
    {pl0 : Plate} (h0 : s.plate g.content.slot = some pl0) (pl : Plate)
    (hpl : pl.reservations.map (·.tag) = pl0.reservations.map (·.tag)) (e : Nat) :
    KeepsStore s (s.beginProgram g pl e) := by
  intro hs
  have hr : g.state ≠ .running := by intro e; rw [e] at hw; cases hw
  have hone : ∀ g' ∈ s.programs, g'.tag = g.tag → g' = g := fun g' hg' e => hs.uniq hg' hg e
  have hnone := hs.waits hg hr
  have hno := hs.waiting g hg hw
  unfold State.beginProgram
  refine KeepsStore.trans ?_ (KeepsStore.tryAllocation _) hs
  refine (KeepsStore.setPlate s g.content.slot (some pl) (fun x hx => by cases hx; exact .inr ⟨pl0, h0, by rw [hpl]⟩)).trans ?_
  refine (KeepsTiles.modProgram _ g.tag (fun g => { g with
      state := .running, estimate := e, generation := some s.cal.generation, nextTile := 0
      captureStep := some .storeWait
      baseFogUsed := if g.content.baseSubtraction then pl.baseFog else none }) (fun _ => rfl) ?_ ?_ ?_ ?_ ?_).store ?_
  · intro g' hg' _ h; cases h
  · intro _ g' hg' et _
    have hg' : g' ∈ s.programs := by simpa using hg'
    refine ⟨rfl, ?_⟩
    intro t ht e
    exact absurd (e.trans et) (hno t (by simpa using ht))
  · intro _ g' hg' et _ t ht e
    exact absurd (e.trans et) (hno t (by simpa using ht))
  · intro _ g' hg' et hc; rw [hone g' (by simpa using hg') et, hnone] at hc; cases hc
  · intro _ g' hg' et hc; rw [hone g' (by simpa using hg') et, hnone] at hc; cases hc
  · intro hs hz
    refine hz.modProgram hs.tags g.tag _ (fun _ => ⟨rfl, rfl⟩) ?_ ?_ ?_ ?_
    · intro g' hg' e _; rw [hone g' (by simpa using hg') e]; exact ProgramState.counted_of_waiting hw
    · exact .inl (fun _ _ _ _ => rfl)
    · intro g' hg' e _
      right; rw [hone g' (by simpa using hg') e]
      simpa [State.headProgram] using hh
    · intro g' hg' e hc; simp at hc

theorem reestimate_tags {pl pl' : Plate} {tag e : Nat} (h : pl.reestimate tag e = some pl') :
    pl'.reservations.map (·.tag) = pl.reservations.map (·.tag) := by
  unfold Plate.reestimate at h
  split at h
  · cases h; exact setRemaining_tags _ _ _
  · cases h

theorem KeepsStore.startHead {g : Program} (hh : s.headProgram = some g) (hg : g ∈ s.programs) (hw : g.state.waiting = true)
    (pl : Plate) (h0 : s.plate g.content.slot = some pl) :
    KeepsStore s (s.startHead g pl).2 := by
  unfold State.startHead
  split
  · exact KeepsStore.endAtStart s hg hw _ _
  · split
    · exact KeepsStore.endAtStart s hg hw _ _
    · split
      · exact KeepsStore.endAtStart s hg hw _ _
      · split
        · exact KeepsStore.endAtStart s hg hw _ _
        · rename_i h; exact KeepsStore.beginProgram s hh hg hw h0 _ (reestimate_tags h) _

theorem headProgram_waits {s : State} {g : Program} (h : s.headProgram = some g) (hr : g.state ≠ .running) :
    g ∈ s.programs ∧ g.state.waiting = true := by
  refine ⟨List.mem_of_find?_eq_some h, ?_⟩
  have := List.find?_some h
  cases e : g.state <;> rw [e] at this hr <;> first | exact absurd rfl hr | rfl | cases this

theorem KeepsStore.examineOffStage {g : Program} (hg : g ∈ s.programs) (hw : g.state.waiting = true) (pl : Plate) :
    KeepsStore s (s.examineOffStage g pl) := by
  unfold State.examineOffStage
  split
  · have h1 : KeepsStore s (if pl.state = .racked then s.callPlate g.content.slot g.tag else s) := by
      split
      · exact KeepsStore.callPlate _ _ _
      · exact KeepsStore.refl _
    refine h1.trans (KeepsStore.headWaits _ ?_ hw _ rfl)
    split <;> simpa using hg
  · rename_i i o _
    have h1 : KeepsStore s (if o.returnable then s.returnPlate i g.content.slot else s) := by
      split
      · exact KeepsStore.returnPlate _ _ _
      · exact KeepsStore.refl _
    refine h1.trans (KeepsStore.headWaits _ ?_ hw _ rfl)
    split <;> simpa using hg

theorem KeepsStore.examineUpTo (k : Nat) : KeepsStore s (s.examineUpTo k) := by
  induction k generalizing s with
  | zero => exact KeepsStore.refl _
  | succ k ih =>
    unfold State.examineUpTo
    split
    · exact KeepsStore.refl _
    · rename_i g hg
      split
      · exact KeepsStore.refl _
      · rename_i hr
        have hh := hg
        obtain ⟨hg, hw⟩ := headProgram_waits hg hr
        split
        · exact KeepsStore.refl _
        · rename_i pl h0
          split
          · dsimp only
            split
            · exact (KeepsStore.startHead s hh hg hw pl h0).trans (ih _)
            · exact KeepsStore.startHead s hh hg hw pl h0
          · exact KeepsStore.headWaits s hg hw _ rfl
          · exact KeepsStore.headWaits s hg hw _ rfl
          · exact KeepsStore.headWaits s hg hw _ rfl
          · exact KeepsStore.examineOffStage s hg hw _
          · exact KeepsStore.examineOffStage s hg hw _

theorem KeepsStore.examine : KeepsStore s s.examine := KeepsStore.examineUpTo _ _

theorem KeepsStore.examineOnChange (s0 : State) : KeepsStore s (s0.examineOnChange s) := by
  unfold State.examineOnChange; split
  · exact KeepsStore.refl _
  · exact KeepsStore.examine _

theorem KeepsStore.settle (s0 : State) : KeepsStore s (s0.settle s) :=
  ((KeepsStore.examineOnChange s s0).trans (KeepsStore.tryAllocation _)).trans (KeepsStore.offerUnit _)

theorem KeepsStore.abortRegistration (r : Registration) (pl : Plate) : KeepsStore s (s.abortRegistration r pl) := by
  have h : ∀ u : State, KeepsStore u ({ u with registration := none }.sendRegDone r pl .aborted none 0) := by
    intro u; apply KeepsStore.same <;> simp
  unfold State.abortRegistration
  refine KeepsStore.trans ?_ (h _)
  split
  all_goals first | exact KeepsStore.refl _ | (split; exact KeepsStore.abandon _; exact KeepsStore.refl _)

theorem KeepsStore.abortFor (i : Nat) (pl : Plate) : KeepsStore s (s.abortFor i pl) := by
  unfold State.abortFor; split
  · split
    · exact KeepsStore.abortRegistration _ _ _
    · exact KeepsStore.refl _
  · exact KeepsStore.refl _

theorem giveUpTile_key (g g' : Program) (b : Bool) (h1 : g'.tag = g.tag) (h2 : g'.captureStep = g.captureStep)
    (h3 : g'.nextTile = g.nextTile) : s.giveUpTile g b = s.giveUpTile g' b := by
  unfold State.giveUpTile; rw [h1, h2, h3]

theorem KeepsStore.losePlate (i : Nat) : KeepsStore s (s.losePlate i) := by
  unfold State.losePlate; split
  · exact KeepsStore.refl _
  · rename_i g hg
    split
    · rw [giveUpTile_key (s.fixOutcome g.tag .plateLost) g { g with outcome := some (g.outcome.getD .plateLost) } true rfl rfl rfl]
      refine (KeepsStore.fixOutcome s _ _).trans (KeepsStore.giveUpTile _ ?_ _)
      simp only [State.fixOutcome, State.modProgram, List.mem_map]
      exact ⟨g, (running_mem hg).1, by simp⟩
    · exact KeepsStore.refl _

/-! ### Reads -/

theorem KeepsStore.releaseReader (id : TileId) : KeepsStore s (s.releaseReader id) :=
  (KeepsStore.modTile s id (fun t => { t with reader := none, consume := false }) (fun _ => ⟨rfl, rfl, rfl⟩) (fun _ h => h)
    (fun _ h => h)).trans (KeepsStore.entryTurnsReady _ _)

theorem KeepsStore.endReadSilently (p : Port) : KeepsStore s (s.endReadSilently p) := by
  unfold State.endReadSilently; split
  · exact KeepsStore.refl _
  · simp only
    split
    · split
      · exact (KeepsStore.setPort _ _ _).trans (KeepsStore.releaseReader _ _)
      · exact KeepsStore.setPort _ _ _
    · exact KeepsStore.setPort _ _ _

theorem State.modTile_freeTile (t : TileEntry) (f : TileEntry → TileEntry) (hf : ∀ x, (f x).id = x.id) :
    (s.modTile t.id f).freeTile t =
      { s with freePages := s.freePages ++ t.output, directory := s.directory.filter (fun x => decide (x.id ≠ t.id)) } := by
  have : (s.directory.map (fun x => if x.id = t.id then f x else x)).filter (fun x => decide (x.id ≠ t.id)) =
      s.directory.filter (fun x => decide (x.id ≠ t.id)) := by
    induction s.directory with
    | nil => rfl
    | cons x l ih =>
      rw [List.map_cons, List.filter_cons, List.filter_cons, ih]
      by_cases e : x.id = t.id
      · simp [e, hf]
      · simp [e]
  simp only [State.freeTile, State.removeTile, State.returnPages, State.modTile, this]

theorem KeepsStore.freeComplete (t : TileEntry) (ht : s.tile? t.id = some t) (hc : t.state = .complete) :
    KeepsStore s ((s.modTile t.id (fun t => { t with reader := none, consume := false })).freeTile t) := by
  rw [State.modTile_freeTile s t (fun t => { t with reader := none, consume := false }) (fun _ => rfl)]
  exact KeepsStore.freeEntry s t.id t ht (fun h => h.complete t (List.mem_of_find?_eq_some ht) hc)

theorem KeepsStore.closeDelivered (p : Port) (r : Read) (t : TileEntry) (ht : s.tile? t.id = some t) :
    KeepsStore s (s.closeDelivered p r t) := by
  unfold State.closeDelivered
  dsimp only
  generalize hq : ({ (s.port p).attachClose _ with read := none } : PortState) = q
  refine (KeepsStore.setPort s p q).trans ?_
  generalize (if r.endLine = t.height then CloseOutcome.complete else CloseOutcome.part) = o
  split
  · rename_i h
    exact KeepsStore.freeComplete _ t (by simpa [State.tile?] using ht) h.2.1
  · exact KeepsStore.releaseReader _ _

theorem KeepsStore.serveClaim (p : Port) (c : Claim) (hc : ∀ tag, c = .programDone tag → TilesAgree s →
    Quiet s tag ∧ ∀ g ∈ s.programs, g.tag = tag → g.state.counted = false) :
    KeepsStore s (s.serveClaim p c) := by
  unfold State.serveClaim; split
  · exact KeepsStore.issuePending _ _
  · intro hs
    obtain ⟨hq, hno⟩ := hc _ rfl hs
    exact ((KeepsStore.refl s).ends (fun _ hz => hz.freed hno) (FreesStore.deliverDone s _ (fun _ => hq))) hs
  · exact KeepsStore.placeWaitingClose _ _
  · exact KeepsStore.judgeBurst _ _

theorem nextClaim_done {s : State} {p : Port} {tag : Nat} (h : s.nextClaim p = some (.programDone tag)) (hs : TilesAgree s) :
    Quiet s tag ∧ ∀ g ∈ s.programs, g.tag = tag → g.state.counted = false := by
  unfold State.nextClaim at h
  split at h
  · cases h
  · split at h
    · rename_i g hg
      cases h
      have hm := List.mem_of_find?_eq_some hg
      have hf := List.find?_some hg
      simp only [Bool.and_eq_true, decide_eq_true_eq] at hf
      refine ⟨hs.quietOf hm (by rw [hf.2]; simp), ?_⟩
      intro g' hg' e
      rw [hs.uniq hg' hm e, hf.2]; rfl
    · split at h
      · cases h
      · split at h <;> cases h

theorem KeepsStore.serveUpTo (p : Port) (k : Nat) : KeepsStore s (s.serveUpTo p k) := by
  induction k generalizing s with
  | zero => exact KeepsStore.refl _
  | succ k ih =>
    unfold State.serveUpTo; split
    · split
      · rename_i c hc
        refine (KeepsStore.serveClaim s p c ?_).trans (ih _)
        intro tag e hs; rw [e] at hc; exact nextClaim_done hc hs
      · exact KeepsStore.refl _
    · exact KeepsStore.refl _

theorem KeepsStore.serveFreed (s0 : State) (p : Port) : KeepsStore s (s0.serveFreed s p) :=
  ((KeepsStore.serveUpTo s p 64).trans (KeepsStore.beginSending _ _)).trans (KeepsStore.settle _ _)

theorem KeepsStore.serveAlone (p : Port) (sel : Claim → Bool) : KeepsStore s (s.serveAlone p sel) := by
  unfold State.serveAlone; split
  · split
    · rename_i c hc
      split
      · refine (KeepsStore.serveClaim s p c ?_).trans (KeepsStore.settle _ _)
        intro tag e hs; rw [e] at hc; exact nextClaim_done hc hs
      · exact KeepsStore.refl _
    · exact KeepsStore.refl _
  · exact KeepsStore.refl _

/-! ### The merge -/

theorem KeepsStore.lineMerged (c : MergeContext) (p : CalParams) (t : TileEntry) : KeepsStore s (s.lineMerged c p t) := by
  unfold State.lineMerged
  dsimp only
  refine KeepsStore.trans ?_ (KeepsStore.judgeTileBurst _ _)
  have h1 : KeepsStore s ({ s with pages := Memory.writeLine s.pages t.output c.width c.nextLine (lineCodes (s.mergedLine c p t)) }.modTile c.id (fun x =>
    { x with fill := c.nextLine + 1, stats := x.stats.map (fun (u : TileStats) => u.addLine (s.mergedLine c p t)) })) := by
    refine KeepsStore.trans (t := { s with pages := Memory.writeLine s.pages t.output c.width c.nextLine (lineCodes (s.mergedLine c p t)) }) ?_
      (KeepsStore.modTile _ _ _ (fun _ => ⟨rfl, rfl, rfl⟩) (fun _ h => h) (fun _ h => h))
    apply KeepsStore.same <;> rfl
  by_cases h8 : c.nextLine % 8 = 0
  · rw [if_pos h8]; exact h1.trans (((KeepsStore.offerPreview _ _ _ _ _).trans (KeepsStore.offerPreview _ _ _ _ _)).trans (KeepsStore.offerPreview _ _ _ _ _))
  · rw [if_neg h8]; exact h1

theorem KeepsStore.countCompleted (tag : Nat) : KeepsStore s (s.countCompleted tag) := by
  unfold State.countCompleted
  simp only
  refine KeepsStore.trans (KeepsStore.modProgram_key s tag (fun g =>
    { g with tilesInMerge := g.tilesInMerge - 1, tilesCompleted := g.tilesCompleted + 1 }) (fun _ => rfl)) ?_
  split
  · exact KeepsStore.refl _
  · rename_i g hg
    split
    · rename_i h
      have ht : g.tag = tag := by simpa using List.find?_some hg
      have hm := program?_mem hg
      intro hs
      refine (KeepsStore.refl _).ends (fun hs hz => hz.freed ?_) (FreesStore.finishProgram _ _ ?_) hs
      · intro g' hg' e
        rw [hs.uniq hg' hm (e.trans ht.symm), h.1]; rfl
      · intro hs; rw [← ht]; exact hs.quietOf hm (by rw [h.1]; simp)
    · exact KeepsStore.refl _

theorem KeepsStore.nextHead : KeepsStore s s.nextHead := by
  unfold State.nextHead; split
  · rename_i x id rest h
    refine KeepsStore.trans ?_ (KeepsStore.beginMerge _ _)
    intro hs
    obtain ⟨a, b⟩ := TilesAgree.same (s := s) (t := { s with mergeQueue := id :: rest, mergeContext := none }) rfl rfl rfl rfl rfl rfl rfl hs
    exact ⟨a, b, Sizes.shrink rfl (by rw [h]; simp) (.inl rfl) rfl⟩
  · intro hs
    obtain ⟨a, b⟩ := TilesAgree.same (s := s) (t := { s with mergeQueue := [], mergeContext := none }) rfl rfl rfl rfl rfl rfl rfl hs
    exact ⟨a, b, Sizes.shrink rfl (Nat.zero_le _) (.inl rfl) rfl⟩

theorem State.modTile_modTile (id : TileId) (f g : TileEntry → TileEntry) (hf : ∀ x, (f x).id = x.id) :
    (s.modTile id f).modTile id g = s.modTile id (fun x => g (f x)) := by
  unfold State.modTile
  simp only [List.map_map]
  congr 1
  apply List.map_congr_left
  intro x _
  simp only [Function.comp]
  by_cases h : x.id = id <;> simp [h, hf]

theorem KeepsStore.mergeCompleted (t : TileEntry) (ht : ∃ t', s.tile? t.id = some t' ∧ t'.raws = t.raws) :
    KeepsStore s (s.mergeCompleted t) := by
  obtain ⟨t', ht', hr⟩ := ht
  unfold State.mergeCompleted
  simp only
  refine KeepsStore.trans ?_ (KeepsStore.nextHead _)
  refine KeepsStore.trans ?_ (KeepsStore.countCompleted _ _)
  refine KeepsStore.trans ?_ (KeepsStore.judgeTileBurst _ _)
  refine KeepsStore.trans ?_ (KeepsStore.sendTileReady _ _ _)
  refine KeepsStore.trans ?_ (KeepsStore.sendTileReady _ _ _)
  refine KeepsStore.trans ?_ (KeepsStore.sendTileReady _ _ _)
  have h3 : KeepsStore s (((s.modTile t.id (fun t => { t with state := .complete, writer := false })).returnPages t.raws.flatten).modTile t.id (fun t => { t with raws := [] })) := by
    have e : ((s.modTile t.id (fun t => { t with state := .complete, writer := false })).returnPages t.raws.flatten).modTile t.id (fun t => { t with raws := [] }) =
        { s with freePages := s.freePages ++ t.raws.flatten, directory := s.directory.map (fun x => if x.id = t.id then { x with state := .complete, writer := false, raws := [] } else x) } := by
      have := State.modTile_modTile (s.returnPages t.raws.flatten) t.id (fun t => { t with state := .complete, writer := false }) (fun t => { t with raws := [] }) (fun _ => rfl)
      exact this
    rw [e]
    refine KeepsStore.clearTile s t.id t' ht' (fun x => { x with state := .complete, writer := false, raws := [] }) _ ?_ ?_ ?_ ?_
    · intro _; rfl
    · intro h; cases h
    · intro _; rfl
    · rw [← hr]; simp only [List.flatten_nil, List.append_nil]; exact List.perm_append_comm
  split
  · exact h3.trans (KeepsStore.turnEntry _ _ _)
  · exact h3

end Sys2Proof.Machine
end

