-- ==== Sys2Proof/Laws/StoreRequests.lean ====
section
/-! SUPPORT. The requests and posts of a port keep pages, tile entries and programs in agreement, and the merge queue and
the reservation lists within their sizes (`KeepsStore`). -/

namespace Sys2Proof.Machine
variable (s : State)

/-- A record takes the place of one with the same reservations. -/
theorem KeepsStore.record {i : Nat} (pl : Plate) (h : ∃ pl0, s.plate i = some pl0 ∧ pl.reservations = pl0.reservations) :
    KeepsStore s (s.setPlate i (some pl)) := by
  obtain ⟨pl0, h, e⟩ := h
  exact KeepsStore.setPlate_same s h pl e

theorem KeepsStore.reply (p : Port) (m : Message) (st : Status) (b : Body) : KeepsStore s (s.reply p m st b) := KeepsStore.place _ _ _

theorem KeepsStore.taking (p : Port) (act : Message → Request → State → Option State)
    (h : ∀ m r s1 s2, s1.programs = s.programs → s1.directory = s.directory → s1.entries = s.entries → s1.tagCounter = s.tagCounter →
      act m r s1 = some s2 → KeepsStore s1 s2) :
    KeepsStore s (s.taking p act) := by
  unfold State.taking
  split
  · exact KeepsStore.fresh _
  · rename_i m s1 h1
    split
    · rename_i r hr
      split
      · rename_i s2 h2
        have e : KeepsStore s s1 ∧ s1.programs = s.programs ∧ s1.directory = s.directory ∧ s1.entries = s.entries ∧ s1.tagCounter = s.tagCounter := by
          unfold State.take at h1
          split at h1
          · split at h1
            · cases h1
              exact ⟨(KeepsStore.fresh s).trans (KeepsStore.setPort _ _ _), by simp, by simp, by simp, by simp⟩
            · cases h1
          · cases h1
        exact e.1.trans (h m r s1 s2 e.2.1 e.2.2.1 e.2.2.2.1 e.2.2.2.2 h2)
      · exact KeepsStore.fresh _
    · exact KeepsStore.fresh _

/-- A program joins the queue and takes a reservation on its plate (01 R10, 03 R56). -/
theorem Sizes.addProgram {s : State} (hz : Sizes s) {pl0 pl : Plate} (g : Program) (k : Nat) (h0 : s.plate g.content.slot = some pl0)
    (hpl : pl.reservations.map (·.tag) = pl0.reservations.map (·.tag) ++ [g.tag])
    (hp : ∀ x ∈ s.programs, x.tag ≠ g.tag) (hc : g.captureStep = none) (hst : g.state.counted = true) :
    Sizes { s.setPlate g.content.slot (some pl) with programs := s.programs ++ [g], tagCounter := k } := by
  obtain ⟨h1, h2⟩ := hz
  refine ⟨⟨by simpa using h1.queue, ?_, by simpa using h1.asked, ?_⟩, ?_⟩
  · show (s.programs ++ [g]).Pairwise _
    rw [List.pairwise_append]
    refine ⟨h1.order, List.pairwise_singleton _ _, ?_⟩
    intro a _ b hb hstep
    rw [List.mem_singleton] at hb; subst hb; exact absurd hc hstep
  · intro x hx hstep
    rcases List.mem_append.1 hx with hx | hx
    · simpa using h1.coming x hx hstep
    · rw [List.mem_singleton] at hx; subst hx; rw [hc] at hstep; simp at hstep
  · intro i q hq
    have hq : (s.setPlate g.content.slot (some pl)).plate i = some q := hq
    rw [State.plate_setPlate] at hq
    have old : ∀ j q, s.plate j = some q → ∀ tag ∈ q.reservations.map (·.tag),
        ∃ x ∈ s.programs, x.tag = tag ∧ x.content.slot = j ∧ x.state.counted = true := by
      intro j q hj tag ht
      obtain ⟨r, hr, rfl⟩ := List.mem_map.1 ht
      exact (h2 j q hj).2 r hr
    split at hq
    · rename_i e
      cases hq
      rw [← e.1]
      refine ⟨?_, ?_⟩
      · rw [hpl, List.nodup_append]
        refine ⟨(h2 _ _ h0).1, by simp, ?_⟩
        intro a ha b hb
        rw [List.mem_singleton] at hb; subst hb
        obtain ⟨x, hx, e, -⟩ := old _ _ h0 a ha
        rw [← e]; exact hp x hx
      · intro r hr
        have : r.tag ∈ pl.reservations.map (·.tag) := List.mem_map_of_mem hr
        rw [hpl, List.mem_append, List.mem_singleton] at this
        rcases this with h | h
        · obtain ⟨x, hx, y⟩ := old _ _ h0 _ h
          exact ⟨x, List.mem_append_left _ hx, y⟩
        · exact ⟨g, List.mem_append_right _ (by simp), h.symm, rfl, hst⟩
    · refine ⟨(h2 i q hq).1, ?_⟩
      intro r hr
      obtain ⟨x, hx, y⟩ := (h2 i q hq).2 r hr
      exact ⟨x, List.mem_append_left _ hx, y⟩

theorem KeepsStore.addProgram {pl0 pl : Plate} (g : Program) (k : Nat) (hk : 1 ≤ k ∧ k ≤ 65535)
    (h0 : s.plate g.content.slot = some pl0) (hpl : pl.reservations.map (·.tag) = pl0.reservations.map (·.tag) ++ [g.tag])
    (hp : ∀ x ∈ s.programs, x.tag ≠ g.tag) (hd : ∀ t ∈ s.directory, t.id.tag ≠ g.tag) (hc : g.captureStep = none)
    (hst : g.state.counted = true) :
    KeepsStore s { s.setPlate g.content.slot (some pl) with programs := s.programs ++ [g], tagCounter := k } := by
  refine KeepsTiles.store ?_ (fun _ hz => hz.addProgram g k h0 hpl hp hc hst)
  intro hs
  obtain ⟨hs, hpp⟩ := TilesAgree.same (s := s) (t := s.setPlate g.content.slot (some pl)) (by simp) (by simp) (by simp) (by simp)
    (by simp) (by simp) (by simp) hs
  have e1 : (s.setPlate g.content.slot (some pl)).programs = s.programs := by simp
  have e2 : (s.setPlate g.content.slot (some pl)).directory = s.directory := by simp
  generalize s.setPlate g.content.slot (some pl) = u at *
  rw [← e1] at hp; rw [← e2] at hd
  have hm : ∀ x ∈ u.programs ++ [g], x ∈ u.programs ∨ x = g := by intro x hx; simpa using hx
  refine ⟨?_, hpp⟩
  constructor
  · exact hs.ids
  · exact hs.failed
  · exact hs.complete
  · show ((s.programs ++ [g]).map (·.tag)).Nodup
    rw [← e1, List.map_append, List.nodup_append]
    refine ⟨hs.tags, by simp, ?_⟩
    intro a ha b hb
    simp only [List.mem_map] at ha; obtain ⟨x, hx, rfl⟩ := ha
    simp only [List.map_cons, List.map_nil, List.mem_cons, List.not_mem_nil, or_false] at hb
    subst hb; exact hp x hx
  · exact hk
  · intro x hx hw t ht
    rcases hm x (by simpa [e1] using hx) with hx | rfl
    · exact hs.waiting x hx hw t ht
    · exact hd t ht
  · intro x hx hw
    rcases hm x (by simpa [e1] using hx) with hx | rfl
    · exact hs.current x hx hw
    · exact absurd hc hw
  · intro x hx hw
    rcases hm x (by simpa [e1] using hx) with hx | rfl
    · exact hs.asking x hx hw
    · rw [hc] at hw; cases hw
  · intro r hr
    obtain ⟨x, hx, a⟩ := hs.request r hr
    exact ⟨x, by simp [← e1, hx], a⟩
  · intro c id h1 h2 h3
    obtain ⟨x, hx, a⟩ := hs.unitTile c id h1 h2 h3
    exact ⟨x, by simp [← e1, hx], a⟩
  · exact hs.disposal
  · exact hs.idle

theorem checkSubmit_plate {s : State} {f : SubmitFields} {pl : Plate} {c : CalParams} {content : Submission}
    (h : s.checkSubmit f = .inr (pl, c, content)) : s.plate content.slot = some pl := by
  unfold State.checkSubmit at h
  repeat' split at h
  all_goals first | (cases h; assumption) | cases h

/-- The tag chosen must be free (03 R56). -/
theorem KeepsStore.submitProgram (hp : ∀ g ∈ s.programs, g.tag ≠ s.chooseTag)
    (hd : ∀ t ∈ s.directory, t.id.tag ≠ s.chooseTag) (hc : 1 ≤ s.chooseTag ∧ s.chooseTag ≤ 65535) (p : Port) (m : Message) (f : SubmitFields) : KeepsStore s (s.submitProgram p m f) := by
  unfold State.submitProgram
  split
  · unfold State.refuseSubmit State.badField; split <;> exact KeepsStore.reply _ _ _ _ _
  · rename_i pl c content hcheck
    split
    · exact KeepsStore.reply _ _ _ _ _
    · rename_i pl' hres
      have hpl : pl'.reservations.map (·.tag) = pl.reservations.map (·.tag) ++ [s.chooseTag] := by
        unfold Plate.reserve at hres
        split at hres
        · cases hres; simp
        · cases hres
      unfold State.acceptSubmit
      refine KeepsStore.trans ?_ (KeepsStore.examineOnChange _ _)
      refine KeepsStore.trans ?_ (KeepsStore.reply _ _ _ _ _)
      apply KeepsStore.addProgram s (newProgram s.chooseTag p content (estimateOf c content)) _ _ (checkSubmit_plate hcheck) hpl
        hp hd rfl rfl
      unfold nextTag; split <;> omega

theorem KeepsStore.joinReader (id : TileId) (p : Port) (k : ReadKind) (c : Bool) : KeepsStore s (s.joinReader id p k c) :=
  KeepsStore.modTile s id (fun t => { t with reader := some (p, k), consume := c }) (fun _ => ⟨rfl, rfl, rfl⟩) (fun _ h => h) (fun _ h => h)

theorem KeepsStore.openRead (p : Port) (r : Read) (o : OutMessage) (a b : Nat) : KeepsStore s (s.openRead p r o a b) :=
  KeepsStore.setPort _ _ _

theorem KeepsStore.removeEntry (p : Port) (id : TileId) : KeepsStore s (s.removeEntry p id) := by apply KeepsStore.same <;> rfl

theorem KeepsStore.streamFetch (p : Port) (m : Message) (t : TileEntry) (c : Bool) : KeepsStore s (s.streamFetch p m t c) :=
  (KeepsStore.joinReader _ _ _ _ _).trans (KeepsStore.openRead _ _ _ _ _ _)

theorem KeepsStore.makeEntry (p : Port) (t : TileEntry) : KeepsStore s (s.makeEntry p t) := by apply KeepsStore.same <;> rfl

theorem KeepsStore.fetchTile (p : Port) (m : Message) (id : TileId) (c : Bool) : KeepsStore s (s.fetchTile p m id c) := by
  unfold State.fetchTile State.fetchComplete State.fetchEarly State.busyTile
  repeat' split
  all_goals first | exact KeepsStore.refl _ | exact KeepsStore.reply _ _ _ _ _ | exact KeepsStore.streamFetch _ _ _ _ _
                  | exact (KeepsStore.removeEntry _ _ _).trans (KeepsStore.reply _ _ _ _ _)
                  | exact (KeepsStore.removeEntry _ _ _).trans (KeepsStore.streamFetch _ _ _ _ _)
                  | exact (KeepsStore.makeEntry _ _ _).trans (KeepsStore.reply _ _ _ _ _)

theorem KeepsStore.openDrain (p : Port) (m : Message) (id : TileId) (a b d : Nat) (c : Bool) : KeepsStore s (s.openDrain p m id a b d c) := by
  unfold State.openDrain State.busyTile
  repeat' split
  all_goals first | exact KeepsStore.refl _ | exact KeepsStore.reply _ _ _ _ _
                  | exact (KeepsStore.removeEntry _ _ _).trans (KeepsStore.reply _ _ _ _ _)
                  | exact (((KeepsStore.removeEntry _ _ _).trans (KeepsStore.joinReader _ _ _ _ _)).trans (KeepsStore.openRead _ _ _ _ _ _)).trans (KeepsStore.judgeBurst _ _)

theorem KeepsStore.stopRead (p : Port) (m : Message) : KeepsStore s (s.stopRead p m) := by
  unfold State.stopRead
  split
  · exact KeepsStore.reply _ _ _ _ _
  · dsimp only
    refine KeepsStore.trans ?_ (KeepsStore.settle _ _)
    refine KeepsStore.trans ?_ (KeepsStore.serveUpTo _ _ _)
    split
    · split
      · exact ((KeepsStore.setPort _ _ _).trans (KeepsStore.place _ _ _)).trans (KeepsStore.releaseReader _ _)
      · exact (KeepsStore.setPort _ _ _).trans (KeepsStore.place _ _ _)
    · exact (KeepsStore.setPort _ _ _).trans (KeepsStore.place _ _ _)

theorem KeepsStore.discardTile (p : Port) (m : Message) (id : TileId) : KeepsStore s (s.discardTile p m id) := by
  unfold State.discardTile State.busyTile
  split
  · exact KeepsStore.reply _ _ _ _ _
  · rename_i t ht
    split
    · exact KeepsStore.reply _ _ _ _ _
    · exact KeepsStore.reply _ _ _ _ _
    · exact KeepsStore.reply _ _ _ _ _
    · rename_i hst
      split
      · exact KeepsStore.reply _ _ _ _ _
      · exact KeepsStore.reply _ _ _ _ _
      · refine KeepsStore.trans ?_ (KeepsStore.settle _ _)
        refine KeepsStore.trans ?_ (KeepsStore.reply _ _ _ _ _)
        exact KeepsStore.freeEntry s id t ht (fun h => h.complete t (List.mem_of_find?_eq_some ht) hst)
    · rename_i hst
      refine KeepsStore.trans ?_ (KeepsStore.settle _ _)
      refine KeepsStore.trans ?_ (KeepsStore.reply _ _ _ _ _)
      intro hs
      have hid : t.id = id := by simpa using List.find?_some ht
      have hm := List.mem_of_find?_eq_some ht
      refine KeepsStore.dropEntries s (fun x => decide (x.id ≠ id)) ?_ hs
      intro h x hx hq
      have hxid : x.id = id := by simpa using hq
      obtain ⟨b, a, hd, hid, ho⟩ := split_tile h.ids ht
      have : x = t := by
        rw [hd] at hx
        simp only [List.mem_append, List.mem_cons] at hx
        rcases hx with hx | rfl | hx
        · exact absurd hxid (ho x (by simp [hx]))
        · rfl
        · exact absurd hxid (ho x (by simp [hx]))
      rw [this]; exact h.failed t hm hst

theorem withdrawCall_tags (i j : Nat) : resTags ((s.withdrawCall i).plate j) = resTags (s.plate j) := by
  unfold State.withdrawCall
  split
  · rfl
  · rename_i pl h
    have key : resTags ((s.setPlate i (some { pl with state := .racked, noticePending := none })).plate j) = resTags (s.plate j) := by
      rw [State.plate_setPlate]; split
      · rename_i e; rw [← e.1, h]; rfl
      · rfl
    split
    · dsimp only
      split
      · exact key
      · rw [State.plate_congr (State.place_rest _ _ _).1]; exact key
    · rfl

theorem KeepsStore.cancelProgram (p : Port) (m : Message) (tag : Nat) : KeepsStore s (s.cancelProgram p m tag) := by
  unfold State.cancelProgram State.cancelReply
  split
  · exact KeepsStore.reply _ _ _ _ _
  · rename_i g hg
    split
    · exact KeepsStore.reply _ _ _ _ _
    · split
      · rename_i hw
        refine KeepsStore.trans ?_ (KeepsStore.settle _ _)
        unfold State.cancelWaiting State.cancelReply
        intro hs
        have hq := hs.quietOf (program?_mem hg) (by intro e; rw [e] at hw; cases hw)
        refine (((((KeepsStore.fixOutcome s _ _).trans (KeepsStore.releaseProgram _ _)).trans (KeepsStore.reply _ _ _ _ _)).trans
          (KeepsStore.withdrawCall _ _)).ends ?_ (FreesStore.finishProgram _ _ ?_)) hs
        · intro hs hz
          have h1 := KeepsStore.fixOutcome s g.tag .cancelled hs
          exact (freed_releaseProgram h1.1 (h1.2.2 hz) g.tag).of_tags (fun i => by
            rw [withdrawCall_tags, State.reply, State.plate_congr (State.place_rest _ _ _).1])
        · intro _; exact hq.of_eq (by simp) (by simp)
      · split
        · refine KeepsStore.trans ?_ (KeepsStore.settle _ _)
          unfold State.cancelRunning State.cancelReply
          rw [giveUpTile_key _ g { g with outcome := some (g.outcome.getD .cancelled) } false rfl rfl rfl]
          refine ((KeepsStore.fixOutcome s _ _).trans (KeepsStore.reply _ _ _ _ _)).trans (KeepsStore.giveUpTile _ ?_ _)
          simp only [State.reply, State.place_rest, State.fixOutcome, State.modProgram, List.mem_map]
          exact ⟨g, program?_mem hg, by simp⟩
        · exact KeepsStore.reply _ _ _ _ _

theorem KeepsStore.calibrate (p : Port) (m : Message) (a b c : Nat) : KeepsStore s (s.calibrate p m a b c) := by
  unfold State.calibrate State.busyPlain State.badField
  repeat' split
  all_goals first | exact KeepsStore.reply _ _ _ _ _ | skip
  unfold State.acceptCalibrate
  refine KeepsStore.trans ?_ (KeepsStore.startMove _ _ rfl ?_)
  · refine KeepsStore.trans ?_ (KeepsStore.reply _ _ _ _ _)
    apply KeepsStore.same <;> rfl
  · intro _ id h; cases h

theorem KeepsStore.dropFinished (p : Port) : KeepsStore s (s.dropFinished p) := by
  unfold State.dropFinished
  have key : ∀ (l : List Nat) (u : State), (∀ tag ∈ l, TilesAgree u → ∀ g ∈ u.programs, g.tag = tag → g.state = .finished) →
      KeepsStore u (l.foldl State.dropProgram u) := by
    intro l
    induction l with
    | nil => intro u _; exact KeepsStore.refl _
    | cons a l ih =>
      intro u hu hs
      rw [List.foldl_cons]
      have h1 : KeepsStore u (u.dropProgram a) := by
        refine (KeepsStore.refl u).ends ?_ (FreesStore.dropProgram u a ?_)
        · intro hs hz
          apply hz.freed
          intro g hg e
          rw [hu a (by simp) hs g hg e]; rfl
        · intro hs
          apply hs.quiet
          intro g hg e
          have := hu a (by simp) hs g hg e
          rw [hs.waits hg (by rw [this]; simp)]; simp
      refine (h1.trans (ih _ ?_)) hs
      intro tag ht _ g hg e
      exact hu tag (by simp [ht]) hs g (List.mem_of_mem_filter hg) e
  intro hs
  apply key _ _ _ hs
  intro tag ht _ g hg e
  simp only [List.mem_map, List.mem_filter, Bool.and_eq_true, decide_eq_true_eq] at ht
  obtain ⟨g', ⟨a, b, c⟩, rfl⟩ := ht
  rw [hs.uniq hg a e]; exact c

theorem KeepsStore.portReset (p : Port) : KeepsStore s (s.portReset p) := by
  unfold State.portReset
  dsimp only
  refine KeepsStore.trans ?_ (KeepsStore.serveFreed _ _ _)
  refine KeepsStore.trans ?_ (KeepsStore.dropFinished _ _)
  refine KeepsStore.trans ?_ (KeepsStore.setPort _ _ _)
  refine KeepsStore.trans (t := (s.dropKeep p).endReadSilently p) ?_ ?_
  · refine KeepsStore.trans ?_ (KeepsStore.endReadSilently _ _)
    unfold State.dropKeep; split
    · exact KeepsStore.modPlate _ _ _ (fun _ => rfl)
    · exact KeepsStore.refl _
  · apply KeepsStore.same <;> rfl

theorem KeepsStore.acceptPlacement (i : Nat) (pl : Plate) (h : s.plate i = some pl) : KeepsStore s (s.acceptPlacement i pl) := by
  have hp := KeepsStore.setPlate_same s h (pl.placed s.settings.autoRegistration) rfl
  unfold State.acceptPlacement
  dsimp only
  refine KeepsStore.trans ?_ (KeepsStore.settle _ _)
  split
  · exact (hp.trans (KeepsStore.interruptCalibration _)).trans (KeepsStore.startRegistration _ _ _)
  · exact hp.trans (KeepsStore.interruptCalibration _)

theorem KeepsStore.plateRemoved (p : Port) (m : Message) (i : Nat) : KeepsStore s (s.plateRemoved p m i) := by
  unfold State.plateRemoved
  split
  · exact KeepsStore.place _ _ _
  · rename_i pl h
    have hp := KeepsStore.setPlate_same s h pl.removed rfl
    split
    · dsimp only
      refine KeepsStore.trans ?_ (KeepsStore.settle _ _)
      split
      · exact (hp.trans (KeepsStore.abortFor _ _ _)).trans (KeepsStore.losePlate _ _)
      · exact hp
    · exact KeepsStore.place _ _ _

theorem KeepsStore.register (p : Port) (m : Message) (i : Nat) : KeepsStore s (s.register p m i) := by
  unfold State.register State.busyPlain
  repeat' split
  all_goals first | exact KeepsStore.reply _ _ _ _ _ | skip
  unfold State.acceptRegister
  exact (((((KeepsStore.record s _ (by refine ⟨_, by assumption, ?_⟩; rfl)).trans (KeepsStore.reply _ _ _ _ _)).trans (KeepsStore.startRegistration _ _ _)).trans (KeepsStore.examine _)).trans
    (KeepsStore.tryAllocation _)).trans (KeepsStore.offerUnit _)

theorem KeepsStore.plateEnter (p : Port) (m : Message) (f : EnterFields) : KeepsStore s (s.plateEnter p m f) := by
  unfold State.plateEnter State.badField
  repeat' split
  all_goals first | exact KeepsStore.reply _ _ _ _ _
                  | exact (KeepsStore.setPlate _ _ _ (by intro x hx; cases hx; exact .inl rfl)).trans (KeepsStore.reply _ _ _ _ _)

theorem TilesAgree.moving {s : State} (h : TilesAgree s) (hm : s.unit.state ≠ .readout) : InHand s := by
  intro c hc
  cases hd : c.disposal with
  | false => rfl
  | true => exact absurd (h.disposal c hc hd) hm

theorem answered_some {s : State} {q : BitVec 8} {c : ExposureContext} (h : s.answered q = some c) :
    s.unit.state = .moving ∧ s.unit.context = some c := by
  unfold State.answered at h
  split at h
  · rename_i h1
    split at h
    · cases h
    · exact ⟨h1.1, h⟩
  · cases h
theorem lineMerged_tile (c : MergeContext) (p : CalParams) (t : TileEntry) (id : TileId) (ht : s.tile? id = some t) :
    ∃ t', (s.lineMerged c p t).tile? t.id = some t' ∧ t'.raws = t.raws := by
  have hid : t.id = id := by simpa using List.find?_some ht
  have hd : (s.lineMerged c p t).directory = s.directory.map (fun x => if x.id = c.id then
      { x with fill := c.nextLine + 1, stats := x.stats.map (fun (u : TileStats) => u.addLine (s.mergedLine c p t)) } else x) := by
    unfold State.lineMerged
    dsimp only
    by_cases h8 : c.nextLine % 8 = 0
    · rw [if_pos h8]; simp [State.modTile]
    · rw [if_neg h8]; simp [State.modTile]
  unfold State.tile? at *
  rw [hd, List.find?_map, hid]
  have : ((fun x : TileEntry => decide (x.id = id)) ∘ fun (x : TileEntry) => if x.id = c.id then
      { x with fill := c.nextLine + 1, stats := x.stats.map (fun (u : TileStats) => u.addLine (s.mergedLine c p t)) } else x) =
      fun x => decide (x.id = id) := by
    funext x; simp only [Function.comp]; split <;> rfl
  rw [this, ht]
  refine ⟨_, rfl, ?_⟩
  dsimp only
  by_cases e : t.id = c.id
  · rw [if_pos e]
  · rw [if_neg e]

theorem KeepsStore.readPlate (p : Port) (m : Message) (i : Nat) : KeepsStore s (s.readPlate p m i) := by
  unfold State.readPlate State.busyPlain
  repeat' split
  all_goals exact KeepsStore.reply _ _ _ _ _
theorem KeepsStore.annotate (p : Port) (m : Message) (i : Nat) (n : List Byte) : KeepsStore s (s.annotate p m i n) := by
  unfold State.annotate
  split
  · exact KeepsStore.place _ _ _
  · rename_i pl h; exact KeepsStore.setPlate_same s h _ rfl
theorem KeepsStore.raiseBudget (p : Port) (m : Message) (i n : Nat) : KeepsStore s (s.raiseBudget p m i n) := by
  unfold State.raiseBudget State.badField
  repeat' split
  all_goals first | exact KeepsStore.reply _ _ _ _ _ | exact (KeepsStore.record s _ (by refine ⟨_, by assumption, ?_⟩; rfl)).trans (KeepsStore.reply _ _ _ _ _)
theorem KeepsStore.retirePlate (p : Port) (m : Message) (i : Nat) : KeepsStore s (s.retirePlate p m i) := by
  unfold State.retirePlate
  repeat' split
  all_goals first | exact KeepsStore.reply _ _ _ _ _ | exact (KeepsStore.setPlate _ _ _ (by intro x hx; cases hx)).trans (KeepsStore.reply _ _ _ _ _)
theorem KeepsStore.platePlaced (p : Port) (m : Message) (i : Nat) : KeepsStore s (s.platePlaced p m i) := by
  unfold State.platePlaced
  repeat' split
  all_goals first | exact KeepsStore.refl _ | exact KeepsStore.place _ _ _ | exact KeepsStore.acceptPlacement _ _ _ (by assumption)
theorem KeepsStore.keep (p : Port) (m : Message) (i : Nat) : KeepsStore s (s.keep p m i) := by
  unfold State.keep
  repeat' split
  all_goals first | exact KeepsStore.reply _ _ _ _ _ | exact ((KeepsStore.record s _ (by refine ⟨_, by assumption, ?_⟩; rfl)).trans (KeepsStore.reply _ _ _ _ _)).trans (KeepsStore.examineOnChange _ _)
theorem KeepsStore.unkeep (p : Port) (m : Message) (i : Nat) : KeepsStore s (s.unkeep p m i) := by
  unfold State.unkeep
  repeat' split
  all_goals first | exact KeepsStore.reply _ _ _ _ _ | exact ((KeepsStore.record s _ (by refine ⟨_, by assumption, ?_⟩; rfl)).trans (KeepsStore.reply _ _ _ _ _)).trans (KeepsStore.examineOnChange _ _)
theorem KeepsStore.releasePlate (p : Port) (m : Message) (i : Nat) : KeepsStore s (s.releasePlate p m i) := by
  unfold State.releasePlate
  repeat' split
  all_goals first | exact KeepsStore.reply _ _ _ _ _ | exact ((KeepsStore.record s _ (by refine ⟨_, by assumption, ?_⟩; rfl)).trans (KeepsStore.reply _ _ _ _ _)).trans (KeepsStore.examineOnChange _ _)
theorem KeepsStore.writeSettings (p : Port) (m : Message) (w : Settings) : KeepsStore s (s.writeSettings p m w) := by
  unfold State.writeSettings
  refine KeepsStore.trans ?_ (KeepsStore.reply _ _ _ _ _)
  apply KeepsStore.same <;> rfl
theorem KeepsStore.setWindow (p : Port) (m : Message) (a b : Nat) : KeepsStore s (s.setWindow p m a b) :=
  (KeepsStore.setPort _ _ _).trans (KeepsStore.reply _ _ _ _ _)
theorem KeepsStore.setPreview (p : Port) (m : Message) (a : Bool) : KeepsStore s (s.setPreview p m a) :=
  (KeepsStore.setPort _ _ _).trans (KeepsStore.reply _ _ _ _ _)

end Sys2Proof.Machine
end

