-- ==== Sys2Proof/Tests/Slice0.lean ====
section
/-! SUPPORT. Tests on small states: the well-formedness checks, the worked examples of the manual, one step of each
family, and a state that meets the hypotheses of each statement (`wit_…`). -/

namespace Sys2Proof.Tests

-- The theorems are elaborated one after another, so that few threads run at once.
set_option Elab.async false

open Sys2Proof.Machine

/-! ### Builders -/

def b (n : Nat) : Octet := .byte (BitVec.ofNat 8 n)
def b16 (n : Nat) : List Octet := [b n, b (n / 256)]
def b32 (n : Nat) : List Octet := b16 n ++ b16 (n / 65536)

def req (c : Code) (payload : List Octet) : Message := ⟨.name (.kind .req), .name (.code c), 7, 0, payload⟩
def post (c : Code) (payload : List Octet) : Message := ⟨.name (.kind .post), .name (.code c), 7, 0, payload⟩

/-- The state after reset with the three links UP. -/
def base : State :=
  { State.reset with ports :=
      { p0 := { PortState.reset with link := .up }, p1 := { PortState.reset with link := .up }
        p2 := { PortState.reset with link := .up } } }

/-- `s` with the one message `m` waiting on port P0. -/
def ask (s : State) (m : Message) : State := s.setPort .p0 { s.port .p0 with inbound := [m] }

/-- The hypotheses of a statement about a request are met: the request is taken next, and `P` holds. -/
abbrev Met (s : State) (m : Message) (r : Request) (P : State → Prop) : Prop :=
  Asks (ask s m) .p0 m [] r ∧ P (ask s m)

/-- A plate of handler port P2. -/
def plate (st : PlateState) : Plate :=
  { state := st, accession := [0x41], sizeClass := .q, condition := .sound, carrier := false, budget := 1000000
    spent := 640, reservations := [], baseFog := none, marginResult := .noResult, note := [], handlerPort := .p2
    keeps := PortSet.none, programCount := 0, noticePending := none }

def held (st : PlateState) : Plate := { plate st with keeps := { p0 := true, p1 := false, p2 := false } }

/-- A plate in slot 31. -/
def on (pl : Plate) : State := base.setPlate 31 (some pl)

def cal : CalParams := { tRef := 5000, level := 128, width := 128, dark := 200, table := List.replicate 128 13876 }

def calibrated (s : State) : State := { s with cal := { generation := 1, params := some cal } }

def content : Submission :=
  { slot := 31, rounding := .nearestEven, mergeMode := .select, marking := false, baseSubtraction := false, sat := 16000
    floor := 64, brackets := [[0]]
    tiles := [{ x := 0, y := 0, c0 := 0, width := 64, height := 16, bracket := 0 }] }

def prog (st : ProgramState) : Program :=
  { newProgram 7 .p1 content 640 with state := st, captureStep := if st = .running then some .inUnit else none }

def tid : TileId := { tag := 7, index := 0 }

def tile (st : TileState) : TileEntry :=
  { id := tid, slot := 31, accession := [0x41], width := 64, height := 16, n := 1, state := st, fill := 0, output := [0]
    raws := [[1]], writer := false, reader := none, consume := false, stats := some TileStats.fresh }

def withTile (t : TileEntry) : State := { base with directory := [t], freePages := (List.range 4096).drop 2 }

def entry (p : Port) (st : EntryState) : PendingEntry :=
  { port := p, tile := tid, slot := 31, state := st, timer := if st = .waiting then none else some 500 }

def withEntry (s : State) (e : PendingEntry) : State := { s with entries := [e] }

def withRead (s : State) (r : Read) (out : List OutEntry) : State :=
  s.setPort .p0 { s.port .p0 with read := some r, outbound := out }

def read : Read :=
  { tile := tid, tag := 9, kind := .drain, consume := false, first := 0, endLine := 16, mode := .freeRun
    threshold := some 1, position := 0, delivered := 0, outcome := none, waitingClose := none }

def stream (count : Nat) : StreamEntry :=
  { reply := none, tile := tid, tag := 9, first := 0, count := count, close := none, isOpen := true }

def reply : OutMessage := { kind := .reply, code := b 0, tag := 1, status := some .ok, body := .empty }

def work (k : WorkKind) : ExposureContext :=
  { kind := k, x := 0, y := 0, gentle := false, c0 := 0, width := 2, height := 2
    exposures := [{ step := some 0, time := 5000, cost := 640 }], current := 1, retakes := 0, level := 128, attempt := 1
    nextLine := 0, disposal := false, doseCharged := 0 }

def unitIn (st : UnitState) (t : UnitTimer) (c : ExposureContext) : State :=
  { base with unit := { state := st, context := some c, moveSeq := 5, takeNumber := 9, timer := t } }

/-- What a field of the state after a command is. -/
def after {α : Type} (f : State → α) (c : Instr) (s : State) : Option α :=
  match exec c s with
  | .next t => some (f t)
  | _ => none

/-! ### Well-formedness refuses -/

theorem test_wf_frame_too_long :
    (Instr.messageArrival .p0 { bytes := List.replicate 8253 (b 0) }).wf = false := by decide +kernel
theorem test_wf_frame_longest :
    (Instr.messageArrival .p0 { bytes := List.replicate 8252 (b 0) }).wf = true := by decide +kernel
theorem test_wf_line_count : (Instr.line 0 0 2 [1] 1).wf = false := by decide
theorem test_wf_ready_tag_zero : (Instr.entryReady { tag := 0, index := 0 }).wf = false := by decide
theorem test_wf_ready_tag_large : (Instr.entryReady { tag := 65536, index := 0 }).wf = false := by decide
theorem test_wf_ready_index : (Instr.entryReady { tag := 1, index := 64 }).wf = false := by decide
theorem test_wf_expiry_tag_zero : (Instr.entryExpiry { tag := 0, index := 63 }).wf = false := by decide

/-! ### The manual's worked examples -/

/-- 04, "times and costs at t_ref 5000, level 128", and the half of R81's last sentence. -/
theorem test_times_and_costs :
    [-24, -17, -3, 0, 7, 12, 32, 64].map (fun e => (exposureTime 5000 e, exposureCost 128 (exposureTime 5000 e))) =
      [(625, 80), (1146, 147), (3856, 494), (5000, 640), (9170, 1174), (14143, 1811), (80000, 10240), (1280000, 163840)] ∧
    exposureTime 100 (-24) = 13 := by decide +kernel

/-- 06 R130, the table of LOG. -/
theorem test_log_table :
    [1, 30, 64, 192, 200, 3072, 9532, 12000, 13000, 15799, 16383].map logOf =
      [0, 5025, 6144, 7767, 7827, 11863, 13536, 13876, 13994, 14282, 14336] := by decide +kernel

def case6 (steps : List Int) (mode : MergeMode) (marking : Bool) (floor : Nat) (rounding : RoundingMode) : DensityParams :=
  { steps := steps, dark := 200, sat := 16000, floor := floor, rounding := rounding, mergeMode := mode
    marking := marking, fog := none }

/-- 06 section 6.6, cases 1 and 2. -/
theorem test_density_normal :
    [RoundingMode.nearestEven, .toZero, .up, .down].map
        (fun m => density (case6 [0, 32, 64] .select false 64 m) 13876 [212, 392, 3272]) =
      [(.normal, 30000), (.normal, 29999), (.normal, 30000), (.normal, 29999)] ∧
    density (case6 [0, 32, 64] .blend false 64 .nearestEven) 13876 [212, 400, 3272] = (.normal, 29911) ∧
    density (case6 [0, 32, 64] .blend false 64 .up) 13876 [212, 400, 3272] = (.normal, 29912) := by decide +kernel

/-- 06 section 6.6, cases 3, 4, 6, 7 and 8. -/
theorem test_density_classes :
    density (case6 [0, 32, 64] .select false 64 .nearestEven) 13876 [210, 220, 250] = (.above, 46812) ∧
    density (case6 [0, 32, 64] .select true 64 .nearestEven) 13876 [210, 220, 250] = (.above, 65535) ∧
    density (case6 [0] .select false 64 .up) 13876 [13200] = (.neg, 0) ∧
    density (case6 [0, 96] .select false 64 .nearestEven) 13876 [230, 16383] = (.gap, 26019) ∧
    density (case6 [0, 96] .select false 64 .nearestEven) 13876 [190, 16383] = (.gap, 40791) ∧
    density (case6 [96] .select false 1 .nearestEven) 13876 [201] = (.ceil, 65000) ∧
    density (case6 [0, 32, 64] .select false 64 .nearestEven) 13876 [16383, 16383, 16100] = (.under, 0) ∧
    density (case6 [0, 32, 64] .select true 64 .nearestEven) 13876 [16383, 16383, 16100] = (.under, 65534) := by
  decide +kernel

/-- 06 section 6.6, case 5. -/
theorem test_rounding_tie :
    [RoundingMode.nearestEven, .toZero, .up, .down].map (fun m => (roundQuotient m 24659968 4096, roundQuotient m (-24659968) 4096)) =
      [(6020, -6020), (6020, -6020), (6021, -6020), (6020, -6021)] ∧
    [RoundingMode.nearestEven, .toZero, .up, .down].map (fun m => roundQuotient m (-1420838) 4096) =
      [-347, -346, -346, -347] := by decide +kernel

/-- 09 R197: the check over the characters "123456789". -/
theorem test_crc : crc32 [0x31, 0x32, 0x33, 0x34, 0x35, 0x36, 0x37, 0x38, 0x39] = 0xCBF43926 := by decide +kernel

/-- 01, "a plate's accounts through two programs". -/
theorem test_accounts :
    let p0 : Plate := { plate .staged with spent := 0 }
    let p1 := (p0.reserve 7 698880).getD p0
    let p2 := (p1.reserve 8 174720).getD p1
    let p3 := (p2.programCharge 7 640).2
    let p4 := (p3.programCharge 7 10240).2
    let p5 := (p4.unreservedCharge .staged 10240).2
    let p6 := (p5.programCharge 7 163840).2
    p2.reserve 9 174720 = none ∧ p2.remainder = 126400 ∧ (p2.reestimate 7 698880 = some p2) ∧
    (p4.spent, p4.reserved, p4.remainder) = (10880, 862720, 126400) ∧
    (p6.spent, p6.reserved, p6.remainder) = (184960, 698880, 116160) ∧
    (p6.release 7).1 = 524160 ∧ (p6.release 7).2.remainder = 640320 := by decide +kernel

/-- 03, "a tag chosen across the wrap". -/
theorem test_tag_wrap :
    firstFreeTag [65535, 1, 2] 3 65534 = 65534 ∧ nextTag 65534 = 65535 ∧ firstFreeTag [65534, 65535, 1, 2] 4 65535 = 3 := by
  decide

/-- 05, "a calibration that succeeds": columns 0, 17 and 4090. -/
theorem test_net_references :
    netReferences { newCalContext .p0 5000 128 4096 with dark := some 200, columnSums := [195203, 67000, 7300] } =
      [12000, 3987, 256] ∧
    darkLevel { newCalContext .p0 5000 128 4096 with darkSum := 13140000 } = 200 ∧ logOf 3987 = 12248 := by decide +kernel

/-- 03 R62, 07 R148: a tile of 1024 by 1024 takes 32 pages a chain, 128 with three exposures. -/
theorem test_pages_wanted :
    AllocRequest.wanted { id := tid, slot := 0, accession := [], width := 1024, height := 1024, n := 3 } = 128 := by decide

/-- 10.9: the report begins with the identity string "DS416". -/
theorem test_identity : identityOctets = [b 0x44, b 0x53, b 0x34, b 0x31, b 0x36, b 0, b 0, b 0] := by decide

/-- 10.6 to 10.9: the lengths of the records and of the payloads of the notices. -/
theorem test_layout_lengths :
    (statsOctets TileStats.fresh).length = 44 ∧
    (bodyOctets (.close (closeRecord read (tile .complete) .stopped))).length = 72 ∧
    (plateOctets 0 (plate .racked)).length = 33 ∧
    (bodyOctets (.status (base.statusReport .p0))).length = 58 ∧
    [Body.postError .malformed (b 0) 0, .callPlate 0 .q .sound false [] 1, .returnPlate 0 [] 1, .callWithdrawn 0 [],
      .regDone 0 [] .read none 0 0, .calDone .dark 0 0 0 0 none none none none,
      .tileReady tid 0 [] 64 16 .unheld 0].map (fun x => (bodyOctets x).length) = [4, 24, 20, 20, 28, 28, 32] := by
  decide +kernel

/-- 10.8, "a PROGRAM_DONE decoded": program 40, CANCELLED during tile 1. -/
theorem test_program_done_layout :
    bodyOctets (.programDone 40 6 (some .cancelled) 1 1 (some (1, 1024)) none 185600 163840 (some 4)) =
      b16 40 ++ [b 6, .name (.programOutcome .cancelled), b 1, b 1, b 1, b 0, b 1, b 0] ++ b16 1 ++ b16 0 ++ b16 1024 ++
        b32 185600 ++ b32 163840 ++ b32 4 := by decide

/-! ### One step of each family -/

/-- 09 R197: the frame of a message that the part sends passes the check a receiver makes. -/
theorem test_frame_accepted : frameAccepted (frameOf reply) = true := frameAccepted_frameOf reply (by decide)

/-- 10 R214: the check of eight zero bytes is 6522DF69h, its least significant byte first; in the other order the frame
fails. -/
theorem test_check_bytes :
    frameAccepted { bytes := List.replicate 8 (b 0) ++ [b 0x69, b 0xDF, b 0x22, b 0x65] } = true ∧
    frameAccepted { bytes := List.replicate 8 (b 0) ++ [b 0x65, b 0x22, b 0xDF, b 0x69] } = false := by decide +kernel

/-- A delivered frame that passes its check. -/
def goodFrame : Frame := { bytes := List.replicate 8 (b 0) ++ [b 0x69, b 0xDF, b 0x22, b 0x65] }

/-- 09 R198, 08 R168: SET_WINDOW arrives, is taken, and clamps its limit to 31. -/
theorem test_window_clamped :
    after (fun t => ((t.port .p0).windowBase, (t.port .p0).windowLimit)) (.setWindow .p0)
      (ask base (req .setWindow [b 9, b 200])) = some (9, 31) := by decide +kernel

/-- 09 R209: WRITE_SETTINGS clamps each value to its range. -/
theorem test_settings_clamped :
    after (fun t => t.settings) (.writeSettings .p0)
        (ask base (req .writeSettings (b16 9 ++ b16 2000 ++ [b 0, b 0x80] ++ b16 0 ++ b16 0 ++ b16 5000))) =
      some { discardTime := 10, retryLimit := 1024, autoRegistration := false, marginStep := -24
             marginSaturation := 1024, marginFloor := 1, marginOffset := 4032 } := by decide +kernel

/-- 01 R16: an entered plate takes the lowest FREE slot. -/
theorem test_plate_enter :
    after (fun t => (t.plate 0).map (fun pl => (pl.accession, pl.budget, pl.handlerPort))) (.plateEnter .p0)
        (ask base (req .plateEnter ([b 2, b 0, .name (.sizeClass .q), .name (.condition .sound), .name (.carrier false), b 0] ++
          b32 1000000 ++ [b 0x41, b 0x42]))) = some (some ([0x41, 0x42], 1000000, .p0)) := by decide +kernel

/-- 10 R214, R215: a byte of a kind that names no message is discarded, and a reserved byte not zero is malformed. -/
theorem test_reserved_byte_malformed :
    readMessage (req .readPlate [b 31, b 1]) = .malformedRequest ∧
    readMessage (req .readPlate [b 31, b 0]) = .request (.readPlate 31) ∧
    readMessage { req .readPlate [b 31, b 0] with kind := .unnamed } = .discarded ∧
    readMessage (post .readPlate [b 31, b 0]) = .malformedPost ∧
    readMessage { req .readPlate [b 31, b 0] with status := 1 } = .malformedRequest := by decide +kernel

/-- 01 R25, R6: the first KEEP of a plate on the stage lights the indicator. -/
theorem test_keep_lights_indicator :
    after (fun t => t.indicator) (.keep .p0) (ask (on (plate .staged)) (req .keep [b 31, b 0])) = some true := by
  decide +kernel

/-- 01 R23, R24: a plate with a keep leaves the stage by a forced removal; its keep set is cleared. -/
theorem test_removal_clears_keeps :
    after (fun t => ((t.plate 31).map (fun pl => (pl.state, pl.keeps)), t.indicator)) (.plateRemoved .p0)
      (ask (on (held .staged)) (post .plateRemoved [b 31, b 0])) = some (some (.racked, PortSet.none), false) := by
  decide +kernel

/-- 04 R88, R83: DONE in MOVING charges the exposure, sends START with the next take number and opens the gate. -/
theorem test_done_starts_take :
    after (fun t => (t.unit.state, t.unit.timer, t.lamp, t.sent)) (.doneAnswer 5)
        (unitIn .moving (.answer 50) (work .calLight)) =
      some (.exposing, .lamp 5000, { level := 128, gateOpen := true }, [.start 10 0 2 2]) := by decide +kernel

/-- 04 R84: an answer with another sequence number is discarded. -/
theorem test_done_other_sequence :
    after (fun t => t.unit.state) (.doneAnswer 4) (unitIn .moving (.answer 50) (work .calLight)) = some .moving := by
  decide +kernel

/-- 04 R83: a dark frame passes through EXPOSING with the gate shut. -/
theorem test_dark_frame_gate_shut :
    after (fun t => (t.unit.state, t.lamp.gateOpen)) (.doneAnswer 5) (unitIn .moving (.answer 50) (work .calDark)) =
      some (.exposing, false) := by decide +kernel

/-- 04 R85: a BUSY is tried again after 10 ms. -/
theorem test_busy_waits :
    after (fun t => t.unit.timer) (.busyAnswer 5) (unitIn .moving (.answer 50) (work .calDark)) = some (.busyWait 10) := by
  decide +kernel

/-- 04 R90, R93: a line with a wrong check value is faulty, and the take is made again. -/
theorem test_wrong_check_is_retaken :
    after (fun t => (t.unit.state, t.unit.takeNumber)) (.line 9 0 2 [1, 2] 4) (unitIn .readout (.line 100) (work .calLight)) =
      some (.exposing, 10) ∧
    after (fun t => (t.unit.state, t.unit.context.map (·.nextLine))) (.line 9 0 2 [1, 2] 3)
      (unitIn .readout (.line 100) (work .calLight)) = some (.readout, some 1) := by decide +kernel

/-- 07 R162: a COMPLETE tile with no reader is discarded and its page returns at the tail. -/
theorem test_discard :
    after (fun t => (t.directory.length, t.freePages.getLast?)) (.discardTile .p0)
      (ask (withTile (tile .complete)) (req .discardTile (b16 7 ++ b16 0))) = some (0, some 0) := by decide +kernel

/-- 08 R173: a fetch of a COMPLETE tile streams it; of a MERGING tile it makes a WAITING entry. -/
theorem test_fetch :
    after (fun t => (t.port .p0).outbound.length) (.fetchTile .p0)
      (ask (withTile (tile .complete)) (req .fetchTile (b16 7 ++ b16 0 ++ [b 1, b 0]))) = some 1 ∧
    after (fun t => t.entries) (.fetchTile .p0)
      (ask (withTile (tile .merging)) (req .fetchTile (b16 7 ++ b16 0 ++ [b 1, b 0]))) = some [entry .p0 .waiting] := by
  decide +kernel

/-- 08 R180: an expired entry is removed and the tile stays. -/
theorem test_expiry :
    after (fun t => (t.entries, t.directory.length)) (.entryExpiry tid)
      (withEntry (withTile (tile .complete)) (entry .p1 .ready)) = some ([], 1) := by decide +kernel

/-- 09 R205: at loss of lock the list of waiting messages stays and the pending entries go. -/
theorem test_loss_of_lock :
    after (fun t => ((t.port .p0).inbound.length, t.entries, (t.port .p0).link)) (.lossOfLock .p0)
      (withEntry (ask base (req .stopRead [])) (entry .p0 .waiting)) = some (1, [], .down) := by decide +kernel

/-- 06 R124, R126: the last line of a tile of height 1 completes it and returns its raw page. -/
theorem test_last_line_completes :
    after (fun t => (t.directory.map (fun x => (x.state, x.fill)), t.freePages.getLast?)) .lineEvent
        { calibrated (withTile { tile .merging with width := 2, height := 1 }) with
          mergeQueue := [tid]
          mergeContext := some { mergeContextOf (prog .merging) { x := 0, y := 0, c0 := 0, width := 2, height := 1, bracket := 0 }
            tid with nextLine := 0 } } =
      some ([(.complete, 1)], some 1) := by decide +kernel

/-- The rows of the table give no bits, so no word spells a command. -/
theorem test_no_word_spells_a_command : decodeTableWord 32 0 = none := by decide

/-! ### Every hypothesis is met: `wit_<statement>` gives states and operands for each clause of the statement -/

/-- Port P0 of `s` with `n` entries on its list. -/
def full (n : Nat) (s : State) : State :=
  s.setPort .p0 { s.port .p0 with outbound := List.replicate n (.message reply) }

def down (s : State) : State := s.setPort .p0 { s.port .p0 with link := .down }

/-- Port P0 of `base` in the middle of sending. -/
def sendingOf (q : Sending) (out : List OutEntry) : State :=
  base.setPort .p0 { base.port .p0 with sending := q, outbound := out, retry := [{ tag := 3, code := b 1, kind := b 1 }] }

/-- A plate with nothing of its budget left. -/
def keptPlate : Plate :=
  { held .staged with budget := 1000, reservations := [{ tag := 7, remaining := 360 }], programCount := 1 }

/-- The same with a reservation of each of eight programs. -/
def fullPlate : Plate :=
  { keptPlate with reservations := (List.range 8).map (fun i => { tag := 65528 + i, remaining := 45 }), programCount := 8 }

def fullPort : PortState :=
  { PortState.reset with
    link := .up, inbound := List.replicate 16 (req .stopRead []), retry := List.replicate 16 { tag := 3, code := b 1, kind := b 1 }
    outbound := List.replicate 64 (.message reply), sending := .retryLater }

/-- Every queue, list and table is full, and the lamp is on. -/
def kept : State :=
  { on fullPlate with
    pending := [.entryExpiry tid]
    unit := (unitIn .exposing (.lamp 5000) (work .calLight)).unit
    lamp := { level := 128, gateOpen := true }
    cal := { generation := 4294967295, params := some cal }
    pages := [(0, 1)]
    mergeQueue := List.replicate 4 tid
    programs := (List.range 8).map (fun i => { prog .queued with tag := 65528 + i })
    directory := (List.range 128).map (fun i =>
      { tile .complete with id := { tag := 7 + i / 64, index := i % 64 }, output := [4095 - i], raws := [] })
    freePages := List.range 3968
    entries := List.replicate 8 (entry .p0 .ready)
    ports := { p0 := fullPort, p1 := fullPort, p2 := fullPort } }

theorem plate_kept (i : Nat) (x : Plate) (h : kept.plate i = some x) : x = fullPlate := by
  have e : kept.plate i = (on fullPlate).plate i := rfl
  have n : base.plate i = none := by
    by_cases hi : i < 32
    · have := (by decide +kernel : ∀ j : Fin 32, base.plate j = none); exact this ⟨i, hi⟩
    · exact State.plate_of_large _ (by omega)
  rw [e, on, State.plate_setPlate] at h
  split at h
  · cases h; rfl
  · rw [n] at h; cases h

theorem wit_StepRunsFrontCommand : kept.pending = .entryExpiry tid :: [] := rfl

theorem slot_kept (i : Nat) (x : Plate) (h : kept.plate i = some x) : i = 31 := by
  have hlt : i < 32 := by
    by_cases hi : i < 32
    · exact hi
    · rw [State.plate_of_large _ (by omega)] at h; cases h
  have := (by decide +kernel : ∀ j : Fin 32, kept.plate j ≠ none → j = 31) ⟨i, hlt⟩ (by rw [h]; simp)
  exact congrArg Fin.val this

theorem kept_one : OneOnStage kept := by
  refine ⟨?_, fun r h => by cases h⟩
  intro i j a c ha hc _ _
  rw [slot_kept i a ha, slot_kept j c hc]

theorem kept_room : MergeRoom kept where
  queue := by decide +kernel
  order := by decide +kernel
  asked := fun h => absurd rfl h
  coming := by decide +kernel

theorem kept_reservations : ReservationsKept kept := by
  intro i x h
  rw [plate_kept i x h, slot_kept i x h]
  decide +kernel

theorem kept_pages : PagesPlaced kept := by
  have e : (kept.directory.flatMap TileEntry.chains).flatten = (List.range' 3968 128).reverse := by decide +kernel
  have r : List.range 4096 = List.range 3968 ++ List.range' 3968 128 := by
    rw [List.range_eq_range', List.range_eq_range']; exact (List.range'_append (s := 0) (m := 3968) (n := 128) (step := 1)).symm
  have f : kept.freePages = List.range 3968 := by simp only [kept]
  unfold PagesPlaced
  rw [e, f, r]
  exact List.Perm.append_left _ (List.reverse_perm _)

theorem kept_tiles : TilesAgree kept where
  ids := by decide +kernel
  failed := by decide +kernel
  complete := by decide +kernel
  tags := by decide +kernel
  counter := by decide +kernel
  waiting := by decide +kernel
  current := by decide +kernel
  asking := by decide +kernel
  request := fun r h => by cases h
  unitTile := fun c id h hk => by cases h; cases hk
  disposal := fun c h hd => by cases h; cases hd
  idle := fun h => by cases h

/-- A state that meets every invariant at the edge of its range, and a step from it. -/
theorem wit_StepKeeps : Safe kept ∧ ∃ t, step kept = .next t ∧ t.entries ≠ kept.entries :=
  ⟨⟨⟨by decide +kernel, by decide +kernel⟩, kept_one,
    fun i x h => by rw [plate_kept i x h]; simp only [Plate.withinBudget]; decide,
    fun _ => rfl,
    ⟨fun p => by cases p <;> exact ⟨by decide +kernel, by decide +kernel, by decide +kernel⟩, by decide +kernel,
      by decide +kernel, by decide +kernel⟩, kept_room, kept_reservations, kept_pages, kept_tiles,
    by simp only [PagesCanonical]; decide +kernel,
    ⟨by decide +kernel, by decide +kernel⟩⟩,
    _, rfl, by decide +kernel⟩

theorem wit_OnlyWhereStated :
    let c : Instr := .entryExpiry tid
    (∀ p, c ≠ .lock p ∧ c ≠ .lossOfLock p ∧ c ≠ .writeSettings p) ∧ c ≠ .reset ∧ c ≠ .lineEvent ∧
    (∀ take number count samples check, c ≠ .line take number count samples check) ∧ ∃ t, exec c kept = .next t :=
  ⟨fun p => by cases p <;> decide, by decide, by decide, by intros; exact Instr.noConfusion, _, rfl⟩

theorem wit_PlateIdentityAndDoseNeverFall :
    let s := ask (on (plate .staged)) (req .raiseBudget (b 31 :: b 0 :: b32 2000000))
    s.plate 31 = some (plate .staged) ∧
    after (fun t => t.plate 31) (.raiseBudget .p0) s = some (some { plate .staged with budget := 2000000 }) := by
  decide +kernel

theorem wit_PortRequestsTouchOnlyTheirPort :
    (after (fun t => (t.port .p0).inbound) (.readPlate .p0) (ask base (req .readPlate [b 0, b 0]))) = some [] ∧
    (after (fun t => (t.port .p0).inbound) (.readSettings .p0) (ask base (req .readSettings []))) = some [] ∧
    (after (fun t => (t.port .p0).inbound) (.queryStatus .p0) (ask base (req .queryStatus []))) = some [] ∧
    (after (fun t => (t.port .p0).inbound) (.setWindow .p0) (ask base (req .setWindow [b 0, b 31]))) = some [] ∧
    (after (fun t => (t.port .p0).inbound) (.setPreview .p0) (ask base (req .setPreview [b 1, b 0]))) = some [] ∧
    (after (fun t => (t.port .p0).inbound) (.malformed .p0) (ask base (req .stopRead [b 1]))) = some [] ∧
    (after (fun t => (t.port .p0).inbound.length) (.messageArrival .p0 goodFrame) base) = some 1 := by
  decide +kernel

theorem wit_EntryGoesToTailOrIsDropped :
    (((full 63 base).port .p0).link = .up ∧ ((full 63 base).port .p0).outbound.length < 64) ∧
    (State.reset.port .p0).link = .down ∧ 64 ≤ ((full 64 base).port .p0).outbound.length := by decide +kernel

theorem wit_LinkGoesUpAndDown : (base.port .p0).link = .up ∧ (State.reset.port .p0).link = .down := by decide

/-- `base` with `i` messages in P0's inbound queue and `r` in its retry list. -/
def crowded (i r : Nat) : State :=
  base.setPort .p0 { base.port .p0 with
    inbound := List.replicate i (req .stopRead []), retry := List.replicate r { tag := 3, code := b 1, kind := b 1 } }

theorem wit_ArrivalQueuesRefusesOrDiscards :
    frameAccepted goodFrame = true ∧ frameAccepted { bytes := List.replicate 8 (b 0) } = false ∧
    ((crowded 15 0).port .p0).link = .up ∧ ((crowded 15 0).port .p0).inbound.length < 16 ∧
    16 ≤ ((crowded 16 15).port .p0).inbound.length ∧ ((crowded 16 15).port .p0).retry.length < 16 ∧
    16 ≤ ((crowded 16 16).port .p0).inbound.length ∧ 16 ≤ ((crowded 16 16).port .p0).retry.length := by decide +kernel

theorem wit_MalformedMessageIsAnswered :
    let m1 := req .stopRead [b 1]
    let m2 := post .portReset [b 1]
    let m3 := { req .stopRead [] with kind := .unnamed }
    Waits (ask base m1) .p0 m1 [] ∧ readMessage m1 = .malformedRequest ∧
    Waits (ask base m2) .p0 m2 [] ∧ readMessage m2 = .malformedPost ∧
    Waits (ask base m3) .p0 m3 [] ∧ readMessage m3 = .discarded := by decide +kernel

theorem wit_AcceptedMessageLeaves :
    let s := sendingOf .retryLater []
    let out : List OutEntry := [.stream { stream 1 with reply := some reply }]
    let closed : StreamEntry := { stream 0 with close := some reply, isOpen := false }
    (s.port .p0).link = .up ∧ (s.port .p0).sending = .retryLater ∧ (s.port .p0).retry ≠ [] ∧
    ((sendingOf .entry [.message reply]).port .p0).sending = .entry ∧
    ((sendingOf .entry [.message reply]).port .p0).outbound = .message reply :: [] ∧
    ((sendingOf .entry out).port .p0).outbound = .stream { stream 1 with reply := some reply } :: [] ∧
    0 < (stream 1).count ∧ (stream 0).count = 0 ∧ (stream 0).close = none ∧
    ((sendingOf .entry [.stream closed]).port .p0).outbound = .stream closed :: [] ∧ closed.count = 0 ∧
    closed.close = some reply ∧ closed.reply = none := by decide +kernel

theorem wit_DeliveredLineLeavesRun :
    let s := fun (n : Nat) (r : Read) => { withTile (tile .complete) with
      ports := (sendingOf .entry [.stream (stream n)]).ports }.setPort .p0 { (sendingOf .entry [.stream (stream n)]).port .p0 with
        read := some r }
    let last := { read with position := 16 }
    let r15 := { read with position := 15 }
    ((s 2 last).port .p0).link = .up ∧ ((s 2 last).port .p0).sending = .entry ∧
    ((s 2 last).port .p0).outbound = .stream (stream 2) :: [] ∧ ((s 1 last).port .p0).outbound = .stream (stream 1) :: [] ∧
    (stream 1).reply = none ∧ ((s 1 last).port .p0).read = some last ∧ ((s 1 r15).port .p0).read = some r15 ∧
    (s 1 last).tile? last.tile = some (tile .complete) ∧ r15.position < r15.endLine ∧ last.endLine ≤ last.position := by
  decide +kernel

/-! #### The plate table -/

/-- Every slot below `n` holds a plate. -/
def crowd (n : Nat) : State :=
  (List.range n).foldl (fun s i => s.setPlate i (some { plate .racked with accession := [0x42, BitVec.ofNat 8 (48 + i)] })) base

def enter (acc : List Byte) (size cond carrier : Octet) (budget note : Nat) : Message :=
  req .plateEnter ([b acc.length, b note, size, cond, carrier, b 0] ++ b32 budget ++ acc.map .byte ++
    List.replicate note (b 0x20))

def enterFields (acc : List Byte) (budget note : Nat) : EnterFields :=
  { accession := acc, sizeClass := some .q, condition := some .sound, carrier := some false, budget := budget
    note := List.replicate note 0x20 }

theorem wit_PlateEnterChecksAndCreates :
    let q : Octet := .name (.sizeClass .q)
    let c : Octet := .name (.condition .sound)
    let k : Octet := .name (.carrier false)
    let a : List Byte := [0x21, 0x7E]
    Met (crowd 32) (enter a q c k 1 0) (.plateEnter (enterFields a 1 0)) (fun s => ∀ i, i < 32 → s.plate i ≠ none) ∧
    Met (crowd 31) (enter [0x42, 0x30] q c k 1 0) (.plateEnter (enterFields [0x42, 0x30] 1 0)) (fun s =>
      s.plate 31 = none ∧ (∀ i, i < 31 → s.plate i ≠ none) ∧ (s.plate 0).map (·.accession) = some [0x42, 0x30]) ∧
    Met (crowd 31) (enter [0x20] q c k 1 0) (.plateEnter (enterFields [0x20] 1 0)) (fun _ => True) ∧
    Met (crowd 31) (enter a .unnamed c k 1 0) (.plateEnter { enterFields a 1 0 with sizeClass := none }) (fun _ => True) ∧
    Met (crowd 31) (enter a q .unnamed k 1 0) (.plateEnter { enterFields a 1 0 with condition := none }) (fun _ => True) ∧
    Met (crowd 31) (enter a q c .unnamed 1 0) (.plateEnter { enterFields a 1 0 with carrier := none }) (fun _ => True) ∧
    Met (crowd 31) (enter a q c k 0 0) (.plateEnter (enterFields a 0 0)) (fun _ => True) ∧
    Met (crowd 31) (enter a q c k 4000000001 0) (.plateEnter (enterFields a 4000000001 0)) (fun _ => True) ∧
    Met (crowd 31) (enter a q c k 4000000000 65) (.plateEnter (enterFields a 4000000000 65)) (fun _ => True) ∧
    Met (crowd 31) (enter a q c k 4000000000 64) (.plateEnter (enterFields a 4000000000 64)) (fun s => ∀ i, i < 32 →
      ∀ pl ∈ s.plate i, pl.accession ≠ a) := by decide +kernel

/-- The port P0 asks `r` about a slot: 31 holds `pl`, 32 holds none. -/
abbrev AsksOf (s : State) (m : Nat → Message) (r : Nat → Request) (pl : Plate) : Prop :=
  Met s (m 31) (r 31) (fun s => s.plate 31 = some pl) ∧ Met s (m 32) (r 32) (fun s => s.plate 32 = none)

def slotReq (c : Code) (n : Nat) : Message := req c [b n, b 0]
def slotPost (c : Code) (n : Nat) : Message := post c [b n, b 0]

theorem wit_ReadPlateAndAnnotate :
    AsksOf (on (plate .registering)) (slotReq .readPlate) .readPlate (plate .registering) ∧
    AsksOf (on (plate .staged)) (slotReq .readPlate) .readPlate (plate .staged) ∧
    AsksOf (on (plate .staged)) (slotPost .annotate) (fun n => .annotate n []) (plate .staged) := by decide +kernel

theorem wit_RaiseBudgetAndRetirePlate :
    let raise := fun n v => req .raiseBudget (b n :: b 0 :: b32 v)
    AsksOf (on (plate .staged)) (fun n => raise n 1000000) (fun n => .raiseBudget n 1000000) (plate .staged) ∧
    AsksOf (on (plate .staged)) (fun n => raise n 1000001) (fun n => .raiseBudget n 1000001) (plate .staged) ∧
    AsksOf (on (plate .staged)) (fun n => raise n 4000000000) (fun n => .raiseBudget n 4000000000) (plate .staged) ∧
    AsksOf (on (plate .staged)) (fun n => raise n 4000000001) (fun n => .raiseBudget n 4000000001) (plate .staged) ∧
    (∀ st ∈ [PlateState.placed, .registering, .staged, .releasing, .called, .racked],
      AsksOf (on (plate st)) (slotReq .retirePlate) .retirePlate (plate st)) ∧
    AsksOf (on { plate .racked with programCount := 1 }) (slotReq .retirePlate) .retirePlate
      { plate .racked with programCount := 1 } := by decide +kernel

theorem wit_PlacementIsAcceptedOrAnswered :
    (∀ st ∈ [PlateState.placed, .registering, .staged, .releasing],
      AsksOf (on (plate st)) (slotPost .platePlaced) .platePlaced (plate st)) ∧
    (∀ st ∈ [PlateState.racked, .called],
      Met ((on (plate st)).setPlate 0 (some (plate .placed))) (slotPost .platePlaced 31) (.platePlaced 31) (fun s =>
        s.plate 31 = some (plate st) ∧ s.occupant ≠ none) ∧
      Met (on (plate st)) (slotPost .platePlaced 31) (.platePlaced 31) (fun s =>
        s.plate 31 = some (plate st) ∧ s.occupant = none ∧ s.settings.autoRegistration = true) ∧
      Met { on (plate st) with settings := { Settings.default with autoRegistration := false } }
        (slotPost .platePlaced 31) (.platePlaced 31) (fun s =>
        s.plate 31 = some (plate st) ∧ s.occupant = none ∧ s.settings.autoRegistration = false)) := by decide +kernel

theorem wit_RemovalIsOrdinaryOrForced :
    (∀ st ∈ [PlateState.racked, .called, .placed, .staged, .releasing],
      AsksOf (on (plate st)) (slotPost .plateRemoved) .plateRemoved (plate st) ∧ (plate st).hasHold = false) ∧
    (∀ st ∈ [PlateState.placed, .registering, .staged],
      AsksOf (on (held st)) (slotPost .plateRemoved) .plateRemoved (held st) ∧ (held st).hasHold = true) := by
  decide +kernel

theorem wit_HoldIsKeepProgramOrRegistration :
    (plate .placed).state = .placed ∧ (plate .registering).state = .registering ∧ (plate .staged).state = .staged ∧
    (plate .releasing).state = .releasing ∧ (plate .racked).state = .racked ∧ (plate .called).state = .called := by decide

theorem wit_KeepAndUnkeepChangeKeepSet :
    ∀ st ∈ [PlateState.racked, .called, .placed, .registering, .staged, .releasing],
      AsksOf (on (plate st)) (slotReq .keep) .keep (plate st) ∧ AsksOf (on (held st)) (slotReq .unkeep) .unkeep (held st) := by
  decide +kernel

theorem wit_ReleaseIsGrantedOrHeld :
    (∀ st ∈ [PlateState.racked, .called, .releasing, .placed, .staged],
      AsksOf (on (plate st)) (slotReq .releasePlate) .releasePlate (plate st) ∧ (plate st).hasHold = false) ∧
    (∀ st ∈ [PlateState.placed, .registering, .staged],
      AsksOf (on (held st)) (slotReq .releasePlate) .releasePlate (held st) ∧ (held st).hasHold = true) := by
  decide +kernel

/-- The boundary amounts of each row: 360 left in the entry of tag 7, 140 unreserved. -/
theorem wit_AccountsFollowTheTable :
    let pl := { keptPlate with budget := 1140 }
    let racked := { pl with state := .racked }
    pl.withinBudget ∧ pl.budget - pl.spent - pl.reserved = 140 ∧
    pl.reservations = [] ++ { tag := 7, remaining := 360 } :: [] ∧ (∀ x ∈ ([] ++ [] : List Reservation), x.tag ≠ 7) ∧
    pl.state = .staged ∧ racked.state ≠ .staged ∧ racked.withinBudget := by
  simp only [Plate.withinBudget]; decide

/-! #### Staging, programs and calibration -/

def withPrograms (s : State) (l : List Program) : State := { s with programs := l }

def elsewhere : Program := { prog .running with content := { content with slot := 30 } }

theorem wit_RegisterStartsOrRefuses :
    (∀ st ∈ [PlateState.racked, .called, .releasing, .registering],
      AsksOf (on (plate st)) (slotReq .register) .register (plate st)) ∧
    (∀ st ∈ [PlateState.placed, .staged],
      AsksOf (withPrograms (on (plate st)) [prog .running]) (slotReq .register) .register (plate st) ∧
      (withPrograms (on (plate st)) [prog .running]).running = some (prog .running) ∧
      (prog .running).content.slot = 31 ∧
      AsksOf (withPrograms (on (plate st)) [elsewhere, prog .merging]) (slotReq .register) .register (plate st) ∧
      ∀ g ∈ [elsewhere, prog .merging], g.state = .running → g.content.slot ≠ 31) := by decide +kernel

def calAt (tRef width : Nat) (s : State) : State :=
  { s with cal := { generation := 1, params := some { cal with tRef := tRef, width := width } } }

def marginAt (step : Int) (offset : Nat) (s : State) : State :=
  { s with settings := { Settings.default with marginStep := step, marginOffset := offset } }

theorem wit_RegistrationStartChecks :
    let s := on (plate .registering)
    s.plate 31 = some (plate .registering) ∧ s.cal.params = none ∧ s.unit.state = .idle ∧
    ((unitIn .moving (.answer 50) (work .calDark)).setPlate 31 (some (plate .registering))).plate 31 =
      some (plate .registering) ∧
    ((unitIn .moving (.answer 50) (work .calDark)).setPlate 31 (some (plate .registering))).unit.state ≠ .idle ∧
    (calAt 5000 128 (marginAt 0 65 s)).cal.params = some { cal with width := 128 } ∧ 128 < 65 + 64 ∧
    exposureTime 100 (-24) < 20 ∧ exposureTime 160 (-24) = 20 ∧ 30000000 < exposureTime 7325 96 ∧
    exposureTime 7324 96 ≤ 30000000 ∧ (marginAt (-24) 64 s).settings.marginOffset + 64 ≤ 128 := by decide +kernel

def registration (ph : RegPhase) (lines : List (List Sample)) : Registration :=
  { slot := 31, requester := none, phase := ph, step := 0, saturation := 16000, floor := 64, offset := 0, time := 5000
    cost := 640, doseCharged := 640, retakes := 0, buffer := lines }

def registering (ph : RegPhase) (lines : List (List Sample)) : State :=
  { calibrated (on (plate .registering)) with registration := some (registration ph lines) }

theorem wit_MeasurementEndsRegistration :
    let lines := List.replicate 32 (List.replicate 64 (3272 : Sample))
    (registering .measuring lines).registration = some (registration .measuring lines) ∧
    (registering .measuring lines).cal.params = some cal ∧ (registration .measuring lines).phase = .measuring ∧
    (normalCodes (registration .measuring lines) cal).length = 2048 ∧
    (normalCodes (registration .measuring [[3272]]) cal).length < 2048 ∧ (registration .moving []).phase ≠ .measuring := by
  decide +kernel

theorem wit_ExaminationActsByTable :
    (∀ st ∈ [PlateState.placed, .registering, .releasing, .racked, .called],
      (withPrograms (on (plate st)) [prog .queued]).headProgram = some (prog .queued) ∧
      (prog .queued).state ≠ .running ∧
      (withPrograms (on (plate st)) [prog .queued]).plate (prog .queued).content.slot = some (plate st)) ∧
    (∀ st ∈ [PlateState.racked, .called],
      (withPrograms (on (plate st)) [prog .queued]).stagePlate = none ∧
      (∀ o ∈ [plate .staged, held .staged, plate .releasing],
        (withPrograms ((on (plate st)).setPlate 0 (some o)) [prog .queued]).stagePlate = some (0, o))) ∧
    (plate .staged).hasHold = false ∧ (held .staged).hasHold = true := by decide +kernel

def submitted (slot : Nat) (rounding : Octet) (step x : Nat) : Message :=
  req .submitProgram ([b slot, rounding, .name (.mergeMode .select), .name (.marking false), .name (.baseSubtraction false),
    b 1, b 1, b 0] ++ b16 16000 ++ b16 64 ++ [b 1, b 0, b step, b 0, b 0, b 0] ++
    (b16 x ++ b16 0 ++ b16 0 ++ b16 64 ++ b16 16 ++ [b 0, b 0]))

def nearest : Octet := .name (.rounding .nearestEven)

/-- What `submitted` spells. -/
def submitFields (m : Message) : SubmitFields := readSubmit m.payload

theorem wit_SubmissionFieldChecks :
    let f := submitFields (submitted 31 nearest 0 0)
    let g := submitFields (submitted 31 .unnamed 0 0)
    g.rounding = none ∧ f.rounding = some .nearestEven ∧ f.mergeMode = some .select ∧ f.marking = some false ∧
    f.baseSubtraction = some false ∧ f.sat = 16000 ∧ f.floor = 64 ∧ f.bracketCount = 1 ∧ f.tileCount = 1 ∧
    f.header = .inr { rounding := .nearestEven, mergeMode := .select, marking := false, baseSubtraction := false } ∧
    ({ f with sat := 1023 } : SubmitFields).header = .inl 8 ∧ ({ f with sat := 1024 } : SubmitFields).header = f.header ∧
    ({ f with sat := 16383 } : SubmitFields).header = f.header ∧ ({ f with sat := 16384 } : SubmitFields).header = .inl 8 ∧
    ({ f with floor := 4095 } : SubmitFields).header = f.header ∧ ({ f with floor := 4096 } : SubmitFields).header = .inl 10 ∧
    ({ f with bracketCount := 4 } : SubmitFields).header = f.header ∧
    ({ f with bracketCount := 5 } : SubmitFields).header = .inl 5 ∧
    ({ f with tileCount := 64 } : SubmitFields).header = f.header ∧
    ({ f with tileCount := 65 } : SubmitFields).header = .inl 6 := by decide +kernel

abbrev Submits (s : State) (m : Message) (P : State → SubmitFields → Prop) : Prop :=
  Met s m (.submitProgram (submitFields m)) (fun s => P s (submitFields m))

def withBudget (n : Nat) : Plate := { plate .staged with budget := n }

theorem wit_SubmitRefusesByFirstFailingCheck :
    let s := calibrated (on (plate .staged))
    let m := submitted 31 nearest 0 0
    Submits s (submitted 32 nearest 0 0) (fun s f => s.plate f.slot = none) ∧
    Submits (withPrograms s (List.replicate 8 (prog .queued))) m (fun s f =>
      s.plate f.slot = some (plate .staged) ∧ 8 ≤ s.programs.length) ∧
    Submits (withPrograms (on (plate .staged)) (List.replicate 7 (prog .queued))) m (fun s _ =>
      s.programs.length < 8 ∧ s.cal.params = none) ∧
    Submits s (submitted 31 .unnamed 0 0) (fun s f => s.cal.params = some cal ∧ f.header = .inl 1) ∧
    Submits s (submitted 31 nearest 97 0) (fun _ f => f.brackets.map (·.good) = [false]) ∧
    Submits s (submitted 31 nearest 96 10801) (fun _ f =>
      f.brackets.map (·.good) = [true] ∧ f.tiles.map (fun d => d.good .q f.bracketCount 128) = [false]) ∧
    Submits (calAt 7325 128 s) (submitted 31 nearest 96 10800) (fun _ f =>
      f.tiles.map (fun d => d.good .q f.bracketCount 128) = [true] ∧
      f.brackets.map (fun x => stepsLegal { cal with tRef := 7325 } x.steps) = [false]) ∧
    Submits (calibrated (on { plate .staged with condition := .cracked })) m (fun s f =>
      (s.plate f.slot).map (fun pl => (pl.condition, pl.carrier)) = some (.cracked, false) ∧
      f.brackets.map (fun x => stepsLegal cal x.steps) = [true]) ∧
    Submits (calibrated (on (withBudget 1279))) m (fun s f => s.plate f.slot = some (withBudget 1279) ∧
      (withBudget 1279).budget - (withBudget 1279).spent - (withBudget 1279).reserved < estimateOf cal content) := by
  decide +kernel

theorem wit_SubmitAcceptsAndReserves :
    let h : HeaderNames := { rounding := .nearestEven, mergeMode := .select, marking := false, baseSubtraction := false }
    Submits (withPrograms (calibrated (on (withBudget 1280))) (List.replicate 7 (prog .queued))) (submitted 31 nearest 0 0)
      (fun s f => s.plate f.slot = some (withBudget 1280) ∧ s.programs.length < 8 ∧ s.cal.params = some cal ∧
        f.header = .inr h ∧ (∀ x ∈ f.brackets, x.good = true) ∧ (∀ d ∈ f.tiles, d.good .q f.bracketCount 128 = true) ∧
        (∀ x ∈ f.brackets, stepsLegal cal x.steps = true) ∧ (withBudget 1280).condition ≠ .cracked ∧
        estimateOf cal (f.content h) ≤ (withBudget 1280).budget - (withBudget 1280).spent - (withBudget 1280).reserved) := by
  decide +kernel

theorem wit_ChosenTagIsFree :
    let s := { kept with tagCounter := 65535 }
    1 ≤ s.tagCounter ∧ s.tagCounter ≤ 65535 ∧ s.programs.length ≤ 8 ∧ s.directory.length ≤ 128 ∧ s.entries.length ≤ 8 := by
  decide +kernel

theorem wit_StartChecksInOrder :
    let s := fun (pl : Plate) => withPrograms (calibrated (on pl)) [{ prog .queued with tag := 7 }]
    let g := prog .queued
    let based := { g with content := { content with baseSubtraction := true } }
    let fogged := { keptPlate with baseFog := some 5 }
    (s keptPlate).cal.params = some cal ∧ g.content.tiles.map (tileStarts { cal with width := 63 } g.content) = [false] ∧
    (calAt 5000 63 (s keptPlate)).cal.params = some { cal with width := 63 } ∧
    g.content.tiles.map (tileStarts { cal with width := 64 } g.content) = [true] ∧
    based.content.tiles.map (tileStarts cal based.content) = [true] ∧ based.content.baseSubtraction = true ∧
    keptPlate.baseFog = none ∧ fogged.baseFog ≠ none ∧ g.content.baseSubtraction = false ∧
    keptPlate.reestimate g.tag (estimateOf cal g.content) = none ∧
    ({ keptPlate with budget := 1280 }.reestimate g.tag (estimateOf cal g.content)).isSome = true := by decide +kernel

def running (step : CaptureStep) : Program := { prog .running with captureStep := some step }

/-- P0 asks for the cancel of tag 7, which `g` holds. -/
abbrev Cancels (g : Program) : Prop :=
  Met (withPrograms (on keptPlate) [g]) (req .cancelProgram (b16 7)) (.cancelProgram 7) (fun s => s.program? 7 = some g)

def heldIn (st : UnitState) : State := { unitIn st (.answer 50) (work (.tile tid)) with programs := [running .inUnit] }

theorem wit_CancelAndGivenUpTile :
    Met (withPrograms (on keptPlate) [prog .queued]) (req .cancelProgram (b16 8)) (.cancelProgram 8)
      (fun s => ∀ g ∈ s.programs, g.tag ≠ 8) ∧
    Cancels { prog .merging with outcome := some .completed } ∧
    (∀ st ∈ [ProgramState.queued, .waitStage, .waitPlate, .waitRegister, .running], Cancels (prog st) ∧
      (prog st).outcome = none) ∧
    (running .storeWait).captureStep = some .storeWait ∧ (running .unitWait).captureStep = some .unitWait ∧
    ∀ st ∈ [UnitState.moving, .exposing, .readout], (heldIn st).unit.state = st ∧
      (heldIn st).holdsTile { tag := (running .inUnit).tag, index := (running .inUnit).nextTile } = true := by
  decide +kernel

/-- P0 asks for a calibration. -/
abbrev Calibrates (s : State) (tRef level width : Nat) (P : State → Prop) : Prop :=
  Met s (req .calibrate (b32 tRef ++ b16 level ++ b16 width)) (.calibrate tRef level width) P

def calContextAt : CalContext := newCalContext .p0 5000 128 64

theorem wit_CalibrateStartsOrRefuses :
    Calibrates (on (plate .placed)) 100 1 64 (fun s => s.occupant ≠ none) ∧
    Calibrates { base with calContext := some calContextAt } 100 1 64 (fun s => s.occupant = none ∧ s.calContext ≠ none) ∧
    Calibrates (withPrograms base [prog .merging]) 100 1 64 (fun s => s.calContext = none ∧
      ∃ g ∈ s.programs, g.state = .running ∨ g.state = .merging) ∧
    Calibrates { base with mergeQueue := [tid] } 100 1 64 (fun s => s.mergeQueue ≠ []) ∧
    Calibrates (unitIn .moving (.answer 50) (work .margin)) 100 1 64 (fun s =>
      s.unit.state ≠ .idle ∧ s.mergeQueue = [] ∧ ∀ g ∈ s.programs, g.state ≠ .running ∧ g.state ≠ .merging) ∧
    (∀ t ∈ [99, 100, 100000, 100001], Calibrates base t 1 64 (fun s => s.unit.state = .idle)) ∧
    (∀ l ∈ [0, 1, 255, 256], Calibrates base 100 l 64 (fun s => s.unit.state = .idle)) ∧
    (∀ w ∈ [63, 64, 65, 4096, 4160], Calibrates base 100 1 w (fun s => s.unit.state = .idle)) := by decide +kernel

theorem wit_LightFrameIsJudgedInOrder :
    let k := { calContextAt with phase := .light, dark := some 0 }
    ({ k with saturation := some 5 } : CalContext).saturation = some 5 ∧
    ({ k with columnSums := [4096, 4095] } : CalContext).saturation = none ∧
    netReferences { k with columnSums := [4096, 4095] } = [256, 255] ∧
    netReferences { k with columnSums := [4096, 4096] } = [256, 256] := by decide +kernel

/-! #### The exposure unit -/

def moving (attempt : Nat) (t : UnitTimer) : State := unitIn .moving t { work .calDark with attempt := attempt }

theorem wit_InstrumentAnswersInMoving :
    (∀ k ∈ [63, 64], (moving k (.answer 50)).unit.state = .moving ∧
      (moving k (.answer 50)).unit.context = some { work .calDark with attempt := k } ∧
      (moving k (.answer 50)).unit.timer = .answer 50 ∧ (moving k (.answer 50)).unit.moveSeq = 5) ∧
    (moving 63 (.answer 50)).settings.retryLimit = 64 ∧ (moving 63 (.busyWait 10)).unit.timer = .busyWait 10 ∧
    base.unit.state ≠ .moving ∧ (4 : BitVec 8) ≠ (moving 63 (.answer 50)).unit.moveSeq := by decide +kernel

/-- A RUNNING program's tile in the exposure unit, its plate on the stage. -/
def inHand (pl : Plate) : State :=
  { on pl with unit := (heldIn .moving).unit, programs := [running .inUnit] }

theorem wit_TileExposureIsCharged :
    let off := { keptPlate with state := .racked }
    let rich := { keptPlate with budget := 1640 }
    let poor := { keptPlate with budget := 1279 }
    (∀ pl ∈ [keptPlate, off, rich, poor], TileInHand (inHand pl) (work (.tile tid)) ⟨some 0, 5000, 640⟩ tid
      (running .inUnit) pl) ∧
    (rich.programCharge 7 640).1 = .granted ∧ (poor.programCharge 7 640).1 = .doseLimit ∧
    (off.programCharge 7 640).1 = .notOnStage ∧ (rich.unreservedCharge .staged 640).1 = .granted ∧
    (poor.unreservedCharge .staged 640).1 = .doseLimit ∧ (off.unreservedCharge .staged 640).1 = .notOnStage := by
  refine ⟨fun pl h => ⟨rfl, rfl, rfl, rfl, ?_⟩, by decide +kernel⟩
  revert pl; decide +kernel

theorem wit_LampTimerEndsExposure :
    ∀ k ∈ [WorkKind.margin, .calLight],
      (unitIn .exposing (.lamp 5000) (work k)).unit.state = .exposing ∧
      (unitIn .exposing (.lamp 5000) (work k)).unit.timer = .lamp 5000 ∧
      (unitIn .exposing (.lamp 5000) (work k)).unit.context = some (work k) := by decide +kernel

def readout (k : WorkKind) : State :=
  { unitIn .readout (.line 100) (work k) with
    registration := some (registration .readout []), calContext := some calContextAt
    directory := [tile .capturing] }

theorem wit_GoodLineIsStored :
    (∀ k ∈ [WorkKind.tile tid, .margin, .calDark, .calLight],
      (readout k).unit.state = .readout ∧ (readout k).unit.context = some (work k) ∧ (work k).kind = k ∧
      lineGood (work k) 0 2 [1, 16383] 16384 = true ∧ (work k).nextLine + 1 ≠ (work k).height ∧ (work k).disposal = false) ∧
    (readout (.tile tid)).tile? tid = some (tile .capturing) ∧ (tile .capturing).raws[0]? = some [1] ∧
    (readout .margin).registration = some (registration .readout []) ∧
    (registration .readout []).buffer.length = (work .margin).nextLine ∧
    (readout .calLight).calContext = some calContextAt ∧ ({ work .margin with disposal := true } : ExposureContext).disposal = true := by
  decide +kernel

theorem wit_FaultyTakesAreRetakenTwice :
    (∀ k ∈ [WorkKind.tile tid, .margin, .calDark, .calLight],
      (readout k).unit.context = some (work k) ∧ (work k).exposure? = some ⟨some 0, 5000, 640⟩ ∧
      (readout k).unit.timer = .line 100 ∧ (readout k).unit.takeNumber = 9 ∧
      lineGood (work k) 0 2 [1, 16384] 16385 = false ∧ lineGood (work k) 1 2 [1, 1] 3 = false ∧
      ({ work k with retakes := 1 } : ExposureContext).retakes < 2 ∧ 2 ≤ ({ work k with retakes := 2 } : ExposureContext).retakes) ∧
    (unitIn .exposing (.lamp 5000) (work .margin)).unit.state = .exposing ∧ base.unit.state = .idle ∧
    (readout .margin).registration ≠ none ∧ (readout .calDark).calContext ≠ none := by decide +kernel

/-! #### The tile store and the merge -/

def waiting (free entries : Nat) : State :=
  { base with
    freePages := List.range free, directory := List.replicate entries (tile .complete)
    allocWaiting := some { id := tid, slot := 31, accession := [0x41], width := 64, height := 16, n := 1 }
    unit := (unitIn .readout (.line 100) (work .margin)).unit }

theorem wit_WaitingWorkIsServed :
    base.allocWaiting = none ∧ (waiting 2 127).allocWaiting.isSome = true ∧ (64 * 16 * 2 + 65535) / 65536 = 1 ∧
    (waiting 1 127).freePages.length < (1 + 1) * 1 ∧ (1 + 1) * 1 ≤ (waiting 2 127).freePages.length ∧
    (waiting 2 127).directory.length < 128 ∧ 128 ≤ (waiting 2 128).directory.length ∧
    (waiting 2 127).unit.state ≠ .idle ∧
    (let s := withPrograms (calibrated (on keptPlate)) [running .unitWait]
     s.unit.state = .idle ∧ s.running = some (running .unitWait) ∧ s.cal.params = some cal ∧
     (running .unitWait).content.tiles[(running .unitWait).nextTile]? = content.tiles[0]? ∧
     s.plate (running .unitWait).content.slot = some keptPlate) ∧
    (registering .waitUnit []).unit.state = .idle ∧ (registering .waitUnit []).running = none ∧
    (registering .waitUnit []).registration = some (registration .waitUnit []) ∧
    (registering .waitUnit []).plate 31 = some (plate .registering) := by decide +kernel

theorem wit_FollowUpLeavesTheRestAlone :
    let s := withPrograms (readout .margin) [prog .merging]
    s.unit.state ≠ .idle ∧ s.allocWaiting = none ∧ s.running = none ∧ s.stageView = s.stageView ∧
    (on keptPlate).plate 31 = some keptPlate := by decide +kernel

def merging (height : Nat) : State :=
  { calibrated (withTile { tile .merging with width := 2, height := height }) with
    mergeQueue := [tid]
    mergeContext := some (mergeContextOf (prog .merging)
      { x := 0, y := 0, c0 := 0, width := 2, height := height, bracket := 0 } tid) }

theorem wit_LineEventMergesALine :
    ∀ h ∈ [1, 2], (merging h).mergeContext.map (fun c => (c.id, c.nextLine, c.height)) = some (tid, 0, h) ∧
      (merging h).cal.params = some cal ∧ ((merging h).tile? tid).isSome = true ∧ (merging h).mergeQueue = tid :: [] ∧
      tid ∉ ([] : List TileId) := by decide +kernel

/-- P0 asks `m` of a tile in state `st` with reader `r`, and the pending entries `es`. -/
abbrev AsksTile (m : Message) (r : Request) (st : TileState) (reader : Option (Port × ReadKind)) (es : List PendingEntry)
    (P : State → Prop) : Prop :=
  Met { withTile { tile st with reader := reader } with entries := es } m r (fun s =>
    s.tile? tid = some { tile st with reader := reader } ∧ s.entries = es ∧ P s)

def discardReq : Message := req .discardTile (b16 7 ++ b16 0)

theorem wit_DiscardTileByRows :
    Met base discardReq (.discardTile tid) (fun s => s.tile? tid = none) ∧
    (∀ st ∈ [TileState.capturing, .mergeWait, .merging, .complete, .failed],
      AsksTile discardReq (.discardTile tid) st none [entry .p1 .waiting] (fun _ => True)) ∧
    AsksTile discardReq (.discardTile tid) .complete (some (.p1, .drain)) [] (fun _ => True) ∧
    AsksTile discardReq (.discardTile tid) .complete none ([] ++ entry .p1 .ready :: [])
      (fun _ => (entry .p1 .ready).tile = tid ∧ (entry .p1 .ready).state = .ready) := by decide +kernel

/-! #### Fetching and draining -/

def fetchReq : Message := req .fetchTile (b16 7 ++ b16 0 ++ [b 1, b 0])

def windowed (base limit : Nat) (s : State) : State :=
  s.setPort .p0 { s.port .p0 with windowBase := base, windowLimit := limit }

/-- A read is open on P0. -/
def reading (s : State) : State := withRead s { read with tile := { tag := 8, index := 0 } } []

/-- The states in which a tile `m` is asked of with no tile in the directory. -/
abbrev AsksGone (m : Message) (r : Request) : Prop :=
  Met (down base) m r (fun s => (s.port .p0).link = .down) ∧
  Met base m r (fun s => (s.port .p0).link = .up ∧ s.tile? tid = none ∧ s.ownEntry .p0 tid = none) ∧
  (∀ st ∈ [EntryState.failed, .ready],
    Met (withEntry base (entry .p0 st)) m r (fun s => s.tile? tid = none ∧ s.ownEntry .p0 tid = some (entry .p0 st) ∧
      (s.port .p0).windowBase ≤ 31 ∧ 31 ≤ (s.port .p0).windowLimit) ∧
    Met (windowed 0 30 (withEntry base (entry .p0 st))) m r (fun s => s.ownEntry .p0 tid = some (entry .p0 st) ∧
      (s.port .p0).windowLimit < 31)) ∧
  (∀ st ∈ [TileState.capturing, .mergeWait, .merging, .complete, .failed],
    Met (windowed 32 31 (withTile (tile st))) m r (fun s => s.tile? tid = some (tile st) ∧ 31 < (s.port .p0).windowBase)) ∧
  Met (withEntry (withTile (tile .complete)) (entry .p0 .failed)) m r (fun s =>
    s.tile? tid = some (tile .complete) ∧ s.ownEntry .p0 tid = some (entry .p0 .failed)) ∧
  AsksTile m r .failed none [] (fun s => (s.port .p0).link = .up)

theorem wit_FetchTileByRows :
    AsksGone fetchReq (.fetchTile tid true) ∧
    (∀ st ∈ [EntryState.ready, .waiting], AsksTile fetchReq (.fetchTile tid true) .complete none [entry .p0 st] (fun s =>
      s.ownEntry .p0 tid = some (entry .p0 st) ∧ (s.port .p0).read = none)) ∧
    Met (reading (withEntry (withTile (tile .complete)) (entry .p0 .ready))) fetchReq (.fetchTile tid true) (fun s =>
      s.tile? tid = some (tile .complete) ∧ s.ownEntry .p0 tid = some (entry .p0 .ready) ∧ (s.port .p0).read ≠ none) ∧
    AsksTile fetchReq (.fetchTile tid true) .complete (some (.p1, .fetch)) [entry .p2 .waiting] (fun s =>
      s.ownEntry .p0 tid = none) ∧
    AsksTile fetchReq (.fetchTile tid true) .complete none ([] ++ entry .p1 .ready :: []) (fun s => s.ownEntry .p0 tid = none) ∧
    AsksTile fetchReq (.fetchTile tid true) .complete none [entry .p1 .waiting] (fun s => (s.port .p0).read = none) ∧
    Met (reading (withTile (tile .complete))) fetchReq (.fetchTile tid true) (fun s =>
      s.tile? tid = some (tile .complete) ∧ (s.port .p0).read ≠ none ∧ s.entries = []) ∧
    ∀ st ∈ [TileState.capturing, .mergeWait, .merging],
      AsksTile fetchReq (.fetchTile tid true) st none [entry .p0 .waiting] (fun s =>
        s.ownEntry .p0 tid = some (entry .p0 .waiting)) ∧
      AsksTile fetchReq (.fetchTile tid true) st (some (.p0, .drain)) [] (fun s => s.ownEntry .p0 tid = none) ∧
      AsksTile fetchReq (.fetchTile tid true) st (some (.p1, .drain)) ([] ++ entry .p1 .waiting :: [])
        (fun s => s.ownEntry .p0 tid = none) ∧
      (∀ n ∈ [7, 8], AsksTile fetchReq (.fetchTile tid true) st none
        (List.replicate n { entry .p1 .waiting with tile := { tag := 8, index := 0 } })
        (fun s => s.ownEntry .p0 tid = none ∧ s.entries.length = n ∧ ∀ x ∈ s.entries, x.tile ≠ tid)) := by
  refine ⟨⟨?_, ?_, ?_, ?_, ?_, ?_⟩, ?_, ?_, ?_, ?_, ?_, ?_, ?_⟩ <;> decide +kernel

def drainReq (threshold count start : Nat) : Message :=
  req .openDrain (b16 7 ++ b16 0 ++ b16 threshold ++ b16 count ++ b16 start ++ [b 1, b 0])

theorem wit_OpenDrainByRows :
    AsksGone (drainReq 1 0 0) (.openDrain tid 1 0 0 true) ∧
    AsksTile (drainReq 1 0 16) (.openDrain tid 1 0 16 true) .merging none [] (fun _ => (tile .merging).height ≤ 16) ∧
    AsksTile (drainReq 1 0 15) (.openDrain tid 1 0 15 true) .merging (some (.p1, .fetch)) [] (fun _ => 15 < (tile .merging).height) ∧
    AsksTile (drainReq 1 0 15) (.openDrain tid 1 0 15 true) .complete none ([] ++ entry .p1 .ready :: []) (fun _ =>
      (entry .p1 .ready).port ≠ .p0) ∧
    Met (reading (withTile (tile .merging))) (drainReq 1 0 15) (.openDrain tid 1 0 15 true) (fun s =>
      s.tile? tid = some (tile .merging) ∧ (s.port .p0).read ≠ none ∧ s.entries = []) ∧
    ∀ c ∈ [0, 1, 2], ∀ t ∈ [0, 1, 256, 257],
      AsksTile (drainReq t c 15) (.openDrain tid t c 15 true) .capturing none [entry .p0 .waiting, entry .p1 .waiting] (fun s =>
        (s.port .p0).read = none ∧ s.ownEntry .p0 tid = some (entry .p0 .waiting)) := by
  refine ⟨⟨?_, ?_, ?_, ?_, ?_, ?_⟩, ?_, ?_, ?_, ?_, ?_⟩ <;> decide +kernel

/-- A drain of P0 at position 0 with threshold `T`, of a tile with `fill` merged lines. -/
def draining (T fill : Nat) (out : List OutEntry) : State :=
  withRead (withTile { tile .merging with fill := fill, reader := some (.p0, .drain) }) { read with threshold := some T } out

theorem wit_BurstTakesMergedLines :
    let due := fun (T fill : Nat) => burstDue { read with threshold := some T } { tile .merging with fill := fill }
    ((draining 4 3 []).port .p0).read = some { read with threshold := some 4 } ∧
    ((draining 4 3 []).tile? tid).isSome = true ∧ due 4 3 = false ∧ due 4 4 = true ∧ due 256 16 = true ∧
    burstDue { read with threshold := some 256 } { tile .complete with fill := 1 } = true ∧
    ((draining 4 4 [.stream (stream 3)]).port .p0).outbound = [] ++ .stream (stream 3) :: [] ∧ (stream 3).isOpen = true ∧
    (∀ e ∈ ((full 63 (draining 4 4 [])).port .p0).outbound, e.isOpenStream = false) ∧
    ((full 63 (draining 4 4 [])).port .p0).outbound.length < 64 ∧ 64 ≤ ((full 64 (draining 4 4 [])).port .p0).outbound.length ∧
    ((down (draining 4 4 [])).port .p0).link = .down := by decide +kernel

/-- No read; a drain with its stream entry on the list, and with it gone; a read that waits with a FAILED record. -/
theorem wit_StopReadEndsRead :
    Met base (req .stopRead []) .stopRead (fun s => (s.port .p0).read = none) ∧
    (∀ x ∈ [stream 3, { stream 3 with reply := some reply }],
      Met (draining 4 3 ([.message reply] ++ .stream x :: [.message reply])) (req .stopRead []) .stopRead (fun s =>
        (s.port .p0).link = .up ∧ (s.port .p0).read = some { read with threshold := some 4 } ∧
        (s.tile? tid).map (·.reader) = some (some (.p0, .drain)) ∧
        (s.port .p0).outbound = [.message reply] ++ .stream x :: [.message reply] ∧ x.isOpen = true ∧
        ∀ e ∈ ([.message reply] ++ [.message reply] : List OutEntry), e.isOpenStream = false)) ∧
    Met (draining 4 3 [.message reply]) (req .stopRead []) .stopRead (fun s =>
      (s.port .p0).link = .up ∧ (s.port .p0).read = some { read with threshold := some 4 } ∧
      (s.tile? tid).map (·.reader) = some (some (.p0, .drain)) ∧ ∀ e ∈ (s.port .p0).outbound, e.isOpenStream = false) ∧
    (let record := closeRecord read (tile .failed) .failed
     let waits := { read with outcome := some CloseOutcome.failed, waitingClose := some record }
     Met (withRead (withTile (tile .failed)) waits [.message reply]) (req .stopRead []) .stopRead (fun s =>
       (s.port .p0).link = .up ∧ (s.port .p0).read = some waits ∧ waits.waitingClose = some record ∧
       (s.tile? tid).map (·.reader) = some none ∧ ∀ e ∈ (s.port .p0).outbound, e.isOpenStream = false)) := by
  decide +kernel

theorem wit_EntryBecomesReadyAndExpires :
    let s := withEntry (withTile (tile .complete)) (entry .p0 .waiting)
    s.tile? tid = some (tile .complete) ∧ (tile .complete).reader = none ∧ s.entries = [] ++ entry .p0 .waiting :: [] ∧
    (entry .p0 .waiting).tile = tid ∧ (entry .p0 .waiting).state = .waiting ∧
    ((windowed 31 31 s).port .p0).windowBase ≤ 31 ∧ 31 ≤ ((windowed 31 31 s).port .p0).windowLimit ∧
    ((windowed 0 30 s).port .p0).windowLimit < 31 ∧ (windowed 0 30 s).entries = s.entries ∧
    base.tile? tid = none ∧ (withTile (tile .merging)).tile? tid = some (tile .merging) ∧
    (entry .p0 .ready).state ≠ .waiting ∧ (entry .p0 .ready).timer = some 500 ∧ (entry .p0 .failed).timer = some 500 := by
  decide +kernel

theorem no_plate (i : Nat) : base.plate i = none := by
  by_cases hi : i < 32
  · have := (by decide +kernel : ∀ j : Fin 32, base.plate j = none); exact this ⟨i, hi⟩
  · exact State.plate_of_large _ (by omega)

/-- Each kind of item that waits, with none before it in order: 63 entries on the list of an UP link. -/
theorem wit_FreeEntryClaimsInOrder :
    let noticed := { plate .called with handlerPort := .p0, noticePending := some (.call 7) }
    let finished := { prog .finished with port := .p0 }
    let waits := { read with outcome := some CloseOutcome.failed, waitingClose := some (closeRecord read (tile .failed) .failed) }
    (∀ s ∈ [full 63 (on noticed), full 63 (withPrograms base [finished]), full 63 (withRead base waits []),
        full 63 (draining 4 4 [])], (s.port .p0).link = .up ∧ (s.port .p0).outbound.length < 64) ∧
    64 ≤ ((full 64 base).port .p0).outbound.length ∧
    ((full 63 (on noticed)).plate 31 = some noticed ∧ ∀ j, j < 31 → (full 63 (on noticed)).plate j = none) ∧
    ((full 63 (withPrograms base [finished])).heldProgram .p0 = some finished ∧
      (full 63 (withPrograms base [finished])).program? 7 = some finished) ∧
    (((full 63 (withRead base waits [])).port .p0).read = some waits ∧ (full 63 (withRead base waits [])).programs = []) ∧
    (((full 63 (draining 4 4 [])).port .p0).read = some { read with threshold := some 4 } ∧
      (full 63 (draining 4 4 [])).programs = [] ∧
      (∀ e ∈ ((full 63 (draining 4 4 [])).port .p0).outbound, e.isOpenStream = false)) := by decide +kernel

/-- … and no plate waits in the last three. -/
theorem wit_FreeEntryClaimsInOrder_no_notice (i : Nat) (l : List Program) (r : Read) (out : List OutEntry) :
    (full 63 (withPrograms base l)).plate i = none ∧ (full 63 (withRead base r out)).plate i = none ∧
    (full 63 (draining 4 4 [])).plate i = none := by
  refine ⟨?_, ?_, ?_⟩
  · exact (State.plate_congr (s := base) (by simp [full, withPrograms]) i).trans (no_plate i)
  · exact (State.plate_congr (s := base) (by simp [full, withRead]) i).trans (no_plate i)
  · exact (State.plate_congr (s := base) (by simp [full, draining, withRead, withTile]) i).trans (no_plate i)

/-! #### The requests of a port -/

theorem wit_WindowSettingsPreviewStatus :
    (∀ n ∈ [31, 32, 255], Met base (req .setWindow [b n, b n]) (.setWindow n n) (fun _ => True)) ∧
    Met base (req .readSettings []) .readSettings (fun _ => True) ∧
    Met base (req .writeSettings (b16 9 ++ b16 1025 ++ [b 0, b 231] ++ b16 1023 ++ b16 0 ++ b16 4033))
      (.writeSettings 9 1025 false (-25) 1023 0 4033) (fun _ => True) ∧
    Met base (req .writeSettings (b16 10001 ++ b16 0 ++ [b 1, b 97] ++ b16 16384 ++ b16 4096 ++ b16 0))
      (.writeSettings 10001 0 true 97 16384 4096 0) (fun _ => True) ∧
    Met base (req .setPreview [b 1, b 0]) (.setPreview true) (fun _ => True) ∧
    Met base (req .queryStatus []) .queryStatus (fun _ => True) := by decide +kernel

theorem wit_PortResetClearsThePort :
    Met (withPrograms (withEntry (draining 4 3 [.stream (stream 3)]) (entry .p0 .waiting))
        [{ prog .finished with port := .p0 }, prog .finished, prog .merging]) (post .portReset []) .portReset (fun s =>
      (s.port .p0).read ≠ none ∧ s.entries ≠ []) ∧
    Met (on (held .staged)) (post .portReset []) .portReset (fun s =>
      s.occupant = some 31 ∧ s.plate 31 = some (held .staged)) := by decide +kernel

/-! #### Arithmetic -/

/-- The ends of the ranges: the first and the last multiplier, the least and the greatest argument of LOG. -/
theorem wit_TimesCostsAndLogsAreRounded :
    (0, 4096) ∈ [(0, 4096), (7, 7512)] ∧ (7, 7512) ∈ [(0, 4096), (7, 7512)] ∧ logOf 1 = 0 ∧ logOf 16383 = 14336 ∧
    exposureTime 5000 (8 * (-3 : Int) + 0) = 625 ∧ exposureTime 5000 (8 * (12 : Int) + 0) = 20480000 := by decide +kernel

theorem wit_DensityRoundsAndClasses :
    let P := case6 [0] .select true 64 .nearestEven
    let Q := case6 [0, 32] .select true 64 .nearestEven
    (∀ r ∈ [16000, 16383], P.sat ≤ r) ∧ (∀ r ∈ [263, 200, 0], r < P.sat ∧ r - P.dark < P.floor) ∧ P.marking = true ∧
    P.steps = [0] ∧ 15999 < P.sat ∧ P.floor ≤ 264 - P.dark ∧ Q.steps = [0, 32] ∧
    (density P 13876 [13200]).1 = .neg ∧ (density P 13876 [264]).1 = .normal ∧
    (density (case6 [96] .select false 1 .nearestEven) 13876 [201]).1 = .ceil ∧
    (density Q 13876 [15999, 15999]).1 = .normal ∧ (density (case6 [0, 0] .select true 64 .nearestEven) 13876 [15999, 15999]).1 = .neg ∧
    (density (case6 [95, 96] .select false 1 .nearestEven) 13876 [201, 201]).1 = .ceil := by decide +kernel

/-! #### The clauses about what an operation leaves -/

/-- The last owed line: of a read that frees its tile, of one that stops short, and of one that does not consume. -/
theorem wit_DeliveredLineLeavesRun_last :
    let last := { read with position := 16 }
    let t := { tile .complete with consume := true }
    (withTile t).tile? last.tile = some t ∧ t.consume = true ∧ t.state = .complete ∧ last.endLine = t.height ∧
    last.first = 0 ∧ (withTile t).entries = [] ∧ (entry .p1 .failed).state = .failed ∧
    ({ last with endLine := 15 } : Read).endLine ≠ t.height ∧ (tile .complete).consume = false ∧ (stream 1).isOpen = true := by
  decide +kernel

/-- A read on an UP link whose tile has its reader, and one whose tile has gone. -/
theorem wit_LinkGoesUpAndDown_read :
    let s := draining 4 3 [.stream (stream 3)]
    (s.port .p0).link = .up ∧ (s.port .p0).read = some { read with threshold := some 4 } ∧
    (s.tile? tid).map (·.reader) = some (some (.p0, .drain)) ∧ read.kind = .drain ∧
    ((reading base).port .p0).read.isSome = true ∧ (reading base).tile? { tag := 8, index := 0 } = none := by decide +kernel

/-- A registration in each phase with its work in the unit, and a RUNNING program for the slot. -/
theorem wit_RemovalIsOrdinaryOrForced_abort :
    let s := fun ph st => { registering ph [] with unit := (unitIn st (.answer 50) (work .margin)).unit }
    (∀ x ∈ [(RegPhase.moving, UnitState.moving), (.exposing, .exposing), (.readout, .readout)],
      (s x.1 x.2).registration = some (registration x.1 []) ∧ (registration x.1 []).phase = x.1 ∧
      (s x.1 x.2).unit.state = x.2 ∧ (s x.1 x.2).unit.context = some (work .margin) ∧ (work .margin).disposal = false) ∧
    (registration .waitUnit []).slot = 31 ∧ base.registration = none ∧ base.running = none ∧
    (inHand keptPlate).running = some (running .inUnit) ∧ (running .inUnit).content.slot = 31 := by decide +kernel

/-- A registration's requester: none, the handler port and another. -/
theorem wit_MeasurementEndsRegistration_done :
    (registering .measuring []).plate 31 = some (plate .registering) ∧ (plate .registering).handlerPort = .p2 ∧
    (registration .measuring []).requester = none ∧
    ∀ q ∈ [Port.p2, .p0], ({ registration .measuring [] with requester := some q } : Registration).requester = some q := by
  decide +kernel

/-- No head, a RUNNING head, and a head whose plate is STAGED that starts or ends; a port that takes a notice or not. -/
theorem wit_ExaminationActsByTable_staged :
    let s := fun (pl : Plate) => withPrograms (calibrated (on pl)) [prog .queued]
    base.headProgram = none ∧ (withPrograms base [prog .running]).headProgram = some (prog .running) ∧
    (∀ pl ∈ [keptPlate, { keptPlate with budget := 1280 }], (s pl).headProgram = some (prog .queued) ∧
      (s pl).plate 31 = some pl ∧ pl.state = .staged ∧ (s pl).program? 7 = some (prog .queued)) ∧
    ((s keptPlate).startHead (prog .queued) keptPlate).1 = true ∧
    ((s { keptPlate with budget := 1280 }).startHead (prog .queued) { keptPlate with budget := 1280 }).1 = false ∧
    ((on keptPlate).port keptPlate.handlerPort).link = .up ∧ ((on keptPlate).port keptPlate.handlerPort).outbound.length < 64 := by
  decide +kernel

/-- A capture that ends with and without tiles in merge, and a CALLED plate that no program wants, its notice sent or
pending. -/
theorem wit_CancelAndGivenUpTile_ends :
    let g := running .inUnit
    let s := withPrograms (on keptPlate) [g]
    s.program? 7 = some g ∧ s.plate g.content.slot = some keptPlate ∧ g.tilesInMerge = 0 ∧
    0 < ({ g with tilesInMerge := 1 } : Program).tilesInMerge ∧ (s.port g.port).link = .up ∧
    (s.port g.port).outbound.length < 64 ∧ s.holdsTile tid = false ∧ ({ g with captureStep := none } : Program).captureStep = none ∧
    (plate .called).state = .called ∧ (plate .called).programCount = 0 ∧ (plate .called).noticePending = none ∧
    keptPlate.programCount ≠ 0 ∧ ({ plate .called with noticePending := some (.call 7) } : Plate).noticePending ≠ none := by
  decide +kernel

/-- The last good LINE of a calibration frame, DARK at its bounds, and a calibration to interrupt in each state. -/
theorem wit_LightFrameIsJudgedInOrder_frames :
    let c := fun k => { work k with nextLine := 1 }
    (∀ k ∈ [WorkKind.calDark, .calLight], ∀ st ∈ [UnitState.moving, .exposing, .readout],
      let s := { unitIn st (.line 100) (c k) with calContext := some calContextAt }
      s.unit.state = st ∧ s.unit.context = some (c k) ∧ s.calContext = some calContextAt ∧
      lineGood (c k) 1 2 [1, 16383] 16385 = true ∧ (c k).nextLine + 1 = (c k).height ∧ 0 < (c k).nextLine ∧
      (c k).disposal = false ∧ (c k).exposures.length ≤ (c k).current) ∧
    (4194304 : Nat) / (16 * calContextAt.width) = 4096 ∧ (4194303 : Nat) / (16 * calContextAt.width) = 4095 ∧
    base.calContext = none ∧ base.unit.context = none := by decide +kernel

/-- Work of each client in a move that ends. -/
theorem wit_InstrumentAnswersInMoving_fails :
    (readout .margin).registration = some (registration .readout []) ∧ (readout .calDark).calContext = some calContextAt ∧
    ∀ k ∈ [WorkKind.tile tid, .margin, .calDark, .calLight], (work k).kind = k := by decide

/-- A program whose outcome is fixed, its plate STAGED again; MARGIN work whose charge is granted, too dear, and late; a
dark and a light frame. -/
theorem wit_TileExposureIsCharged_more :
    let lost := { running .inUnit with outcome := some .plateLost }
    TileInHand (withPrograms (inHand keptPlate) [lost]) (work (.tile tid)) ⟨some 0, 5000, 640⟩ tid lost keptPlate ∧
    (let s := fun (pl : Plate) => { registering .moving [] with
       plates := (on pl).plates, unit := (unitIn .moving (.answer 50) (work .margin)).unit }
     (∀ pl ∈ [plate .registering, { plate .registering with budget := 1279 }, plate .racked],
       (s pl).unit.context = some (work .margin) ∧ (work .margin).exposure? = some ⟨some 0, 5000, 640⟩ ∧
       (s pl).registration = some (registration .moving []) ∧ (s pl).plate 31 = some pl) ∧
     ((plate .registering).unreservedCharge .registering 640).1 = .granted ∧
     (({ plate .registering with budget := 1279 } : Plate).unreservedCharge .registering 640).1 = .doseLimit ∧
     ((plate .racked).unreservedCharge .registering 640).1 = .notOnStage) ∧
    (∀ k ∈ [WorkKind.calDark, .calLight], let s := unitIn .moving (.answer 50) (work k)
     s.unit.context = some (work k) ∧ (work k).exposure? = some ⟨some 0, 5000, 640⟩) := by
  refine ⟨⟨rfl, rfl, rfl, rfl, by decide +kernel⟩, by decide +kernel, by decide +kernel⟩

/-- The last good LINE of a take, with an exposure to follow and without, and in disposal; a CAPTURED tile that joins an
empty merge queue and one that is not, with a tile to follow and without, and with an outcome fixed. -/
theorem wit_GoodLineIsStored_last :
    (∀ k ∈ [WorkKind.tile tid, .margin, .calDark, .calLight],
      let c := { work k with height := 1 }
      lineGood c 0 2 [1, 16383] 16384 = true ∧ c.nextLine + 1 = c.height ∧ c.exposures.length ≤ c.current ∧
      c.disposal = false ∧ ({ c with disposal := true } : ExposureContext).disposal = true ∧
      ({ c with exposures := c.exposures ++ c.exposures } : ExposureContext).current <
        (c.exposures ++ c.exposures).length) ∧
    (let two := { content with tiles := content.tiles ++ content.tiles }
     let g := running .inUnit
     ∀ x ∈ [g, { g with content := two }, { g with outcome := some .cancelled }],
       (withPrograms base [x]).program? 7 = some x ∧ (x.content.tiles[0]?).isSome = true ∧ base.mergeQueue = [] ∧
       (merging 1).mergeQueue ≠ [] ∧ g.content.tiles.length ≤ 0 + 1 ∧ 0 + 1 < two.tiles.length) := by decide +kernel

/-- A tile that fails: with no reader, with a drain's stream entry standing, with room for its closing record and without. -/
theorem wit_FaultyTakesAreRetakenTwice_fails :
    base.tile? tid = none ∧ (withTile (tile .capturing)).tile? tid = some (tile .capturing) ∧
    (tile .capturing).reader = none ∧
    (∀ s ∈ [draining 4 3 [.stream (stream 3)], full 63 (draining 4 3 []), full 64 (draining 4 3 [])],
      (s.tile? tid).map (·.reader) = some (some (.p0, .drain)) ∧ (s.port .p0).read = some { read with threshold := some 4 } ∧
      (s.port .p0).link = .up) ∧
    ((draining 4 3 [.stream (stream 3)]).port .p0).outbound = [] ++ .stream (stream 3) :: [] ∧
    ((full 63 (draining 4 3 [])).port .p0).outbound.length < 64 ∧ 64 ≤ ((full 64 (draining 4 3 [])).port .p0).outbound.length := by
  decide +kernel

/-- A tile in STORE_WAIT with 3 and with 4 tiles in the merge queue. -/
theorem wit_WaitingWorkIsServed_asks :
    let s := withPrograms (on keptPlate) [running .storeWait]
    s.running = some (running .storeWait) ∧ (running .storeWait).captureStep = some .storeWait ∧ s.allocWaiting = none ∧
    (content.tiles[0]?).isSome = true ∧ s.plate 31 = some keptPlate ∧ ([tid, tid, tid] : List TileId).length < 4 ∧
    4 ≤ ([tid, tid, tid, tid] : List TileId).length ∧ (waiting 2 127).allocWaiting ≠ none ∧
    (running .unitWait).captureStep ≠ some .storeWait ∧
    ({ waiting 2 127 with unit := base.unit } : State).unit.state = .idle ∧ (waiting 2 127).registration = none := by
  decide +kernel

/-- The unit IDLE and nothing waiting; a stage and a head that have changed. -/
theorem wit_FollowUpLeavesTheRestAlone_idle :
    base.unit.state = .idle ∧ base.stageView = base.stageView ∧ base.allocWaiting = none ∧ base.running = none ∧
    base.registration = none ∧ (on (plate .staged)).stageView ≠ base.stageView ∧
    (withPrograms base [prog .queued]).headProgram.map (·.tag) ≠ base.headProgram.map (·.tag) := by decide +kernel

/-- A tile counted as the last in merge and as one of two; a merge queue of one and of two. -/
theorem wit_LineEventMergesALine_counts :
    let g := { prog .merging with tilesInMerge := 1 }
    (∀ x ∈ [g, { g with tilesInMerge := 2 }, prog .running], (withPrograms base [x]).program? 7 = some x) ∧
    g.state = .merging ∧ g.tilesInMerge ≤ 1 ∧ (prog .running).state ≠ .merging ∧ (merging 1).mergeQueue = [tid] ∧
    ({ withPrograms (merging 1) [g] with mergeQueue := [tid, tid] } : State).mergeQueue = tid :: tid :: [] ∧
    (g.content.tiles[tid.index]?).isSome = true := by decide +kernel

/-- Brackets of three: the largest step valid, a smaller one valid below it, a GAP, and all under FLOOR without marking. -/
theorem wit_DensityRoundsAndClasses_bracket :
    let P := case6 [0, 16, 32] .blend true 64 .nearestEven
    P.steps.zip [264, 264, 15999] = [(0, 264), (16, 264)] ++ (32, 15999) :: [] ∧
    P.steps.zip [264, 264, 16000] = [(0, 264)] ++ (16, 264) :: [(32, 16000)] ∧
    P.steps.zip [263, 16000, 16000] = [] ++ (0, 263) :: [(16, 16000), (32, 16000)] ∧
    (density P 13876 [264, 264, 15999]).1 = .normal ∧ (density P 13876 [264, 264, 16000]).1 = .normal ∧
    (density P 13876 [263, 16000, 16000]).1 = .gap ∧ (density P 13876 [263, 263, 263]).1 = .above ∧
    (density { P with marking := false } 13876 [263, 263, 263]).1 = .above := by decide +kernel

/-- A port that takes nothing: a full list, an empty queue, and a queue whose oldest message is another one. -/
theorem wit_PortRequestsTouchOnlyTheirPort_idle :
    ((full 64 base).port .p0).link = .up ∧ 64 ≤ ((full 64 base).port .p0).outbound.length ∧ (base.port .p0).inbound = [] ∧
    ((ask base (req .readSettings [])).port .p0).inbound = [req .readSettings []] ∧
    readMessage (req .readSettings []) = .request .readSettings ∧
    Taken.request .readSettings ≠ .request .queryStatus ∧
    Taken.request .readSettings ≠ .malformedRequest := by decide +kernel

/-- A line of a chain of two pages, with the last sample of the first page and the first of the second. -/
theorem wit_GoodLineIsStored_readBack :
    let samples := List.replicate 5000 (1 : BitVec 16)
    samples.length = 5000 ∧ [5, 0].Nodup ∧ (6 + 1) * 5000 * 2 ≤ 65536 * [5, 0].length ∧
    samples[2767]? = some 1 ∧ (6 * 5000 * 2 + 2 * 2767) / 65536 = 0 ∧
    samples[2768]? = some 1 ∧ (6 * 5000 * 2 + 2 * 2768) / 65536 = 1 := by
  decide +kernel

/-- The claims of an event: a held program, a waiting closing record and a due burst with one entry free, and a port at
which nothing waits. -/
theorem wit_FreeEntryClaimsInOrder_event :
    let finished := { prog .finished with port := .p0 }
    let waits := { read with outcome := some CloseOutcome.failed, waitingClose := some (closeRecord read (tile .failed) .failed) }
    (∀ s ∈ [full 63 (withPrograms base [finished, { prog .queued with tag := 8 }]), full 63 (withRead base waits []),
        full 63 (draining 4 4 []), draining 4 4 [.stream (stream 3)], base],
      (s.programs.map (·.tag)).Nodup ∧ (s.port .p0).link = .up ∧ (s.port .p0).outbound.length < 64) ∧
    waits.waitingClose ≠ none ∧ read.waitingClose = none ∧
    ((draining 4 4 []).tile? tid).any (burstDue { read with threshold := some 4 }) = true ∧ read.tile = tid ∧
    (∃ e ∈ ((draining 4 4 [.stream (stream 3)]).port .p0).outbound, e.isOpenStream = true) ∧
    (base.port .p0).read = none ∧ base.programs = [] := by decide +kernel

/-- The message that begins next: a refused message's RETRY_LATER, the entry at the front, none, and none while another is
being sent or the link is DOWN. -/
theorem wit_FreeEntryClaimsInOrder_sending :
    (∀ s ∈ [sendingOf .idle [], sendingOf .idle [.message reply], base],
      ((s.serveClaims .p0).port .p0).link = .up ∧ ((s.serveClaims .p0).port .p0).sending = .idle) ∧
    (((sendingOf .idle []).serveClaims .p0).port .p0).retry ≠ [] ∧
    (let s := base.setPort .p0 { base.port .p0 with outbound := [.message reply] }
     ((s.serveClaims .p0).port .p0).retry = [] ∧ ((s.serveClaims .p0).port .p0).outbound = [.message reply] ∧
     ((s.serveClaims .p0).port .p0).sending = .idle) ∧
    ((base.serveClaims .p0).port .p0).retry = [] ∧ ((base.serveClaims .p0).port .p0).outbound = [] ∧
    (((down base).serveClaims .p0).port .p0).link = .down ∧
    (((sendingOf .entry [.message reply]).serveClaims .p0).port .p0).sending ≠ .idle := by decide +kernel

end Sys2Proof.Tests
end

section
/-! The plate table's requests and posts of chapter 01: PLATE_ENTER (R16), READ_PLATE (R17), ANNOTATE (R18), RAISE_BUDGET
(R19), RETIRE_PLATE (R20) and RELEASE_PLATE (R28). Each command is first brought to its effect on the state with the
message taken; then each effect has one equation per row of its rule. -/

namespace Sys2Proof

/-! ### The plate states by groups (01 section 1.2) -/

theorem PlateState.onStage_iff (st : PlateState) :
    st.onStage = true ↔ st = .placed ∨ st = .registering ∨ st = .staged ∨ st = .releasing := by
  cases st <;> simp [PlateState.onStage]

theorem PlateState.onStage_eq_false_iff (st : PlateState) : st.onStage = false ↔ st = .racked ∨ st = .called := by
  cases st <;> simp [PlateState.onStage]

namespace Machine

/-! ### A request or post taken is its effect on the state that is left (09 R199) -/

section Taken

variable {s : State} {p : Port} {m : Message} {rest : List Message} {slot : Nat}

theorem exec_plateEnter_of_asks {f : EnterFields} (h : Asks s p m rest (.plateEnter f)) :
    exec (.plateEnter p) s = .next ((s.taken p rest).plateEnter p m f) :=
  congrArg Host.Outcome.next (State.taking_of_asks h _)

theorem exec_readPlate_of_asks (h : Asks s p m rest (.readPlate slot)) :
    exec (.readPlate p) s = .next ((s.taken p rest).readPlate p m slot) :=
  congrArg Host.Outcome.next (State.taking_of_asks h _)

theorem exec_annotate_of_asks {note : List Byte} (h : Asks s p m rest (.annotate slot note)) :
    exec (.annotate p) s = .next ((s.taken p rest).annotate p m slot note) :=
  congrArg Host.Outcome.next (State.taking_of_asks h _)

theorem exec_raiseBudget_of_asks {budget : Nat} (h : Asks s p m rest (.raiseBudget slot budget)) :
    exec (.raiseBudget p) s = .next ((s.taken p rest).raiseBudget p m slot budget) :=
  congrArg Host.Outcome.next (State.taking_of_asks h _)

theorem exec_retirePlate_of_asks (h : Asks s p m rest (.retirePlate slot)) :
    exec (.retirePlate p) s = .next ((s.taken p rest).retirePlate p m slot) :=
  congrArg Host.Outcome.next (State.taking_of_asks h _)

theorem exec_releasePlate_of_asks (h : Asks s p m rest (.releasePlate slot)) :
    exec (.releasePlate p) s = .next ((s.taken p rest).releasePlate p m slot) :=
  congrArg Host.Outcome.next (State.taking_of_asks h _)

end Taken

/-! ### Searches of the plate table, said of the records by slot -/

/-- The table holds, at each of its 32 places, the record of that slot (01 R1). -/
theorem State.plates_getElem? (s : State) (i : Nat) :
    s.plates[i]? = if i < 32 then some (s.plate i) else none := by
  by_cases hi : i < 32 <;> simp [State.plate, hi]

/-- A record stands in the table exactly when some slot has it. -/
theorem State.mem_plates_toList (s : State) (r : Option Plate) :
    r ∈ s.plates.toList ↔ ∃ i, i < 32 ∧ s.plate i = r := by
  simp [List.mem_iff_getElem?, State.plates_getElem?]

theorem State.freeSlot_eq_none_iff (s : State) : s.freeSlot = none ↔ ∀ i, i < 32 → s.plate i ≠ none := by
  rw [State.freeSlot, List.findIdx?_eq_none_iff]
  constructor
  · intro h i hi hfree
    simpa [hfree] using h _ ((s.mem_plates_toList _).2 ⟨i, hi, rfl⟩)
  · intro h r hr
    obtain ⟨i, hi, rfl⟩ := (s.mem_plates_toList r).1 hr
    simpa [Option.isSome_iff_ne_none] using h i hi

/-- The slot a new plate takes is the lowest-numbered FREE one (01 R16). -/
theorem State.freeSlot_eq_some {s : State} {slot : Nat} (hlt : slot < 32) (hfree : s.plate slot = none)
    (hlow : ∀ i, i < slot → s.plate i ≠ none) : s.freeSlot = some slot := by
  have hat : s.plates.toList[slot]? = some none := by
    rw [Vector.getElem?_toList, State.plates_getElem?, if_pos hlt, hfree]
  refine findIdx?_first hat rfl (fun j r hj hr => ?_)
  rw [Vector.getElem?_toList, State.plates_getElem?, if_pos (by omega), Option.some.injEq] at hr
  simpa [← hr, Option.isSome_iff_ne_none] using hlow j hj

theorem State.hasAccession_iff (s : State) (a : List Byte) :
    s.hasAccession a = true ↔ ∃ i pl, s.plate i = some pl ∧ pl.accession = a := by
  rw [State.hasAccession, List.any_eq_true]
  constructor
  · rintro ⟨r, hr, ha⟩
    obtain ⟨i, -, rfl⟩ := (s.mem_plates_toList r).1 hr
    cases hp : s.plate i with
    | none => simp [hp] at ha
    | some pl => exact ⟨i, pl, hp, by simpa [hp] using ha⟩
  · rintro ⟨i, pl, hp, ha⟩
    exact ⟨some pl, (s.mem_plates_toList _).2 ⟨i, State.lt_of_plate hp, hp⟩, by simpa using ha⟩

theorem accessionGood_iff (a : List Byte) :
    accessionGood a = true ↔ 1 ≤ a.length ∧ a.length ≤ 16 ∧ ∀ b ∈ a, 0x21 ≤ b.toNat ∧ b.toNat ≤ 0x7E := by
  simp [accessionGood, and_assoc]

/-! ### The rows of each rule -/

section Rows

variable {s : State} {slot : Nat} {pl : Plate} (p : Port) (m : Message)

/-! PLATE_ENTER, in the order of the table of R16. -/

section Enter

variable {f : EnterFields}

theorem State.plateEnter_full (h : s.freeSlot = none) : s.plateEnter p m f = s.reply p m .tableFull := by
  simp [State.plateEnter, h]

variable (hslot : s.freeSlot = some slot)
include hslot

theorem State.plateEnter_duplicate (hdup : s.hasAccession f.accession = true) :
    s.plateEnter p m f = s.reply p m .duplicate := by
  simp [State.plateEnter, hslot, hdup]

variable (hnew : s.hasAccession f.accession = false)
include hnew

theorem State.plateEnter_badAccession (hbad : accessionGood f.accession = false) :
    s.plateEnter p m f = s.badField p m 0 := by
  simp [State.plateEnter, hslot, hnew, hbad]

variable (hgood : accessionGood f.accession = true)
include hgood

/-- The field named is the first of size class, condition and carrier that names no value (log 25). -/
theorem State.plateEnter_unnamed (hnone : f.sizeClass = none ∨ f.condition = none ∨ f.carrier = none) :
    ∃ offset, s.plateEnter p m f = s.badField p m offset ∧
      (offset = 2 ∧ f.sizeClass = none ∨ offset = 3 ∧ f.condition = none ∨ offset = 4 ∧ f.carrier = none) := by
  cases hsize : f.sizeClass with
  | none => exact ⟨2, by simp [State.plateEnter, hslot, hnew, hgood, hsize], by simp⟩
  | some size =>
    cases hcond : f.condition with
    | none => exact ⟨3, by simp [State.plateEnter, hslot, hnew, hgood, hsize, hcond], by simp⟩
    | some condition =>
      have hcarrier : f.carrier = none := by simpa [hsize, hcond] using hnone
      exact ⟨4, by simp [State.plateEnter, hslot, hnew, hgood, hsize, hcond, hcarrier], by simp [hcarrier]⟩

/-- Where every named value is one, the budget and then the note are judged, and the plate enters. -/
theorem State.plateEnter_named {size : SizeClass} {condition : Condition} {carrier : Bool}
    (hsize : f.sizeClass = some size) (hcond : f.condition = some condition) (hcarrier : f.carrier = some carrier) :
    s.plateEnter p m f =
      if f.budget = 0 ∨ 4000000000 < f.budget then s.badField p m 6
      else if 64 < f.note.length then s.badField p m 1
      else (s.setPlate slot (some (enteredPlate p f size condition carrier))).reply p m .accepted (.slot slot) := by
  simp [State.plateEnter, hslot, hnew, hgood, hsize, hcond, hcarrier]

end Enter

/-! READ_PLATE (R17) and ANNOTATE (R18). -/

theorem State.readPlate_free (h : s.plate slot = none) : s.readPlate p m slot = s.reply p m .unknownPlate := by
  simp [State.readPlate, h]

theorem State.readPlate_entered (h : s.plate slot = some pl) :
    s.readPlate p m slot = if pl.state = .registering then s.busyPlain p m else s.reply p m .ok (.plate slot pl) := by
  simp [State.readPlate, h]

theorem State.annotate_free (h : s.plate slot = none) (note : List Byte) :
    s.annotate p m slot note = s.place p (postErrorTo m .unknownPlate slot) := by
  simp [State.annotate, h]

theorem State.annotate_entered (h : s.plate slot = some pl) (note : List Byte) :
    s.annotate p m slot note = s.setPlate slot (some { pl with note := note }) := by
  simp [State.annotate, h]

/-! RAISE_BUDGET (R19). -/

theorem State.raiseBudget_free (h : s.plate slot = none) (budget : Nat) :
    s.raiseBudget p m slot budget = s.reply p m .unknownPlate := by
  simp [State.raiseBudget, h]

theorem State.raiseBudget_raised (h : s.plate slot = some pl) {budget : Nat} (hgt : pl.budget < budget)
    (hle : budget ≤ 4000000000) :
    s.raiseBudget p m slot budget = (s.setPlate slot (some { pl with budget := budget })).reply p m .ok
      (.budget budget pl.spent pl.reserved (budget - pl.spent - pl.reserved)) := by
  simp [State.raiseBudget, h, hgt, hle]

theorem State.raiseBudget_refused (h : s.plate slot = some pl) {budget : Nat}
    (hbad : budget ≤ pl.budget ∨ 4000000000 < budget) : s.raiseBudget p m slot budget = s.badField p m 2 := by
  simp only [State.raiseBudget, h]
  rw [if_neg (by omega)]

/-! RETIRE_PLATE, in the order of the table of R20. -/

theorem State.retirePlate_free (h : s.plate slot = none) : s.retirePlate p m slot = s.reply p m .unknownPlate := by
  simp [State.retirePlate, h]

theorem State.retirePlate_onStage (h : s.plate slot = some pl) (hon : pl.state.onStage = true) :
    s.retirePlate p m slot = s.reply p m .onStage := by
  simp [State.retirePlate, h, hon]

theorem State.retirePlate_called (h : s.plate slot = some pl) (hcalled : pl.state = .called) :
    s.retirePlate p m slot = s.reply p m .called := by
  simp [State.retirePlate, h, hcalled, PlateState.onStage]

/-- A plate at rest in the rack leaves the table unless it has programs. -/
theorem State.retirePlate_racked (h : s.plate slot = some pl) (hracked : pl.state = .racked) :
    s.retirePlate p m slot =
      if pl.programCount = 0 then (s.setPlate slot none).reply p m .ok else s.reply p m .programsPending := by
  simp [State.retirePlate, h, hracked, PlateState.onStage]

/-! RELEASE_PLATE, by the rows of R28. -/

theorem State.releasePlate_free (h : s.plate slot = none) : s.releasePlate p m slot = s.reply p m .notOnStage := by
  simp [State.releasePlate, h]

theorem State.releasePlate_offStage (h : s.plate slot = some pl) (hoff : pl.state.onStage = false) :
    s.releasePlate p m slot = s.reply p m .notOnStage := by
  have hne : pl.state ≠ .releasing := by
    intro e
    simp [e, PlateState.onStage] at hoff
  simp [State.releasePlate, h, hne, hoff]

theorem State.releasePlate_releasing (h : s.plate slot = some pl) (hst : pl.state = .releasing) :
    s.releasePlate p m slot = s.reply p m .granted := by
  simp [State.releasePlate, h, hst]

/-- On the stage and not yet RELEASING, the plate's hold decides the answer (01 R5). -/
theorem State.releasePlate_onStage (h : s.plate slot = some pl)
    (hst : pl.state = .placed ∨ pl.state = .registering ∨ pl.state = .staged) :
    s.releasePlate p m slot =
      if pl.hasHold then s.reply p m .held (.held pl.keeps pl.programCount (decide (pl.state = .registering)))
      else s.examineOnChange ((s.setPlate slot (some { pl with state := .releasing })).reply p m .granted) := by
  have hon : pl.state.onStage = true := (PlateState.onStage_iff _).2 (by tauto)
  have hne : pl.state ≠ .releasing := by
    rintro e
    simp [e] at hst
  simp [State.releasePlate, h, hne, hon]

end Rows

/-! ### The obligations

The taking of the message leaves every plate record as it was (`State.plate_taken`), so each row is judged on the record
that the statement names. -/

/-- Settles O21, by the checks of R16 in order: each row is judged where the rows above it have passed. -/
theorem plateEnterChecksAndCreates : Obligations.PlateEnterChecksAndCreates := by
  intro s p m rest f hasks u duplicate accessionOk
  rw [exec_plateEnter_of_asks hasks]
  have hdup : u.hasAccession f.accession = true ↔ duplicate := by
    simpa [u] using u.hasAccession_iff f.accession
  have hok : accessionGood f.accession = true ↔ accessionOk := accessionGood_iff f.accession
  refine ⟨fun hfull => ?_, fun slot hlt hfree hlow => ?_⟩
  · have hnone : u.freeSlot = none := u.freeSlot_eq_none_iff.2 (by simpa [u] using hfull)
    exact congrArg _ (State.plateEnter_full p m hnone)
  · have hslot : u.freeSlot = some slot := State.freeSlot_eq_some hlt (by simpa [u] using hfree) (by simpa [u] using hlow)
    have hnew : ¬ duplicate → u.hasAccession f.accession = false := fun h => Bool.eq_false_of_not_eq_true (mt hdup.1 h)
    have hbad : ¬ accessionOk → accessionGood f.accession = false := fun h => Bool.eq_false_of_not_eq_true (mt hok.1 h)
    refine ⟨fun h => ?_, fun h hacc => ?_, fun h hacc => ⟨fun hnone => ?_, fun size condition carrier hs hc hk => ?_⟩⟩
    · exact congrArg _ (State.plateEnter_duplicate p m hslot (hdup.2 h))
    · exact congrArg _ (State.plateEnter_badAccession p m hslot (hnew h) (hbad hacc))
    · obtain ⟨offset, he, hoffset⟩ := State.plateEnter_unnamed p m hslot (hnew h) (hok.2 hacc) hnone
      exact ⟨offset, congrArg _ he, hoffset⟩
    · rw [State.plateEnter_named p m hslot (hnew h) (hok.2 hacc) hs hc hk]
      refine ⟨fun hb => ?_, fun hlo hhi hn => ?_, fun hlo hhi hn => ?_⟩
      · rw [if_pos hb]; rfl
      · rw [if_neg (by omega), if_pos hn]; rfl
      · rw [if_neg (by omega), if_neg (by omega)]; rfl

/-- Settles O22, by the record of the slot: FREE, or entered and REGISTERING or not. -/
theorem readPlateAndAnnotate : Obligations.ReadPlateAndAnnotate := by
  refine ⟨fun s p m rest slot hasks => ?_, fun s p m rest slot note hasks => ?_⟩
  · rw [exec_readPlate_of_asks hasks]
    simp only [← State.plate_taken s p rest slot]
    refine ⟨fun h => ?_, fun pl h hst => ?_, fun pl h hst => ?_⟩
    · rw [State.readPlate_free p m h]
    · rw [State.readPlate_entered p m h, if_pos hst]; rfl
    · rw [State.readPlate_entered p m h, if_neg hst]
  · rw [exec_annotate_of_asks hasks]
    simp only [← State.plate_taken s p rest slot]
    refine ⟨fun pl h => ?_, fun h => ?_⟩
    · rw [State.annotate_entered p m h]
    · rw [State.annotate_free p m h]; rfl

/-- Settles O23, by the checks of R19 and by the table of R20 in its order. -/
theorem raiseBudgetAndRetirePlate : Obligations.RaiseBudgetAndRetirePlate := by
  refine ⟨fun s p m rest slot budget hasks => ?_, fun s p m rest slot hasks => ?_⟩
  · rw [exec_raiseBudget_of_asks hasks]
    simp only [← State.plate_taken s p rest slot]
    refine ⟨fun h => ?_, fun pl h hgt hle => ?_, fun pl h hbad => ?_⟩
    · rw [State.raiseBudget_free p m h]
    · rw [State.raiseBudget_raised p m h hgt hle]
    · rw [State.raiseBudget_refused p m h hbad]; rfl
  · rw [exec_retirePlate_of_asks hasks]
    simp only [← State.plate_taken s p rest slot]
    refine ⟨fun h => ?_, fun pl h => ⟨fun hon => ?_, fun hst => ?_, fun hst hcount => ?_, fun hst hcount => ?_⟩⟩
    · rw [State.retirePlate_free p m h]
    · rw [State.retirePlate_onStage p m h ((PlateState.onStage_iff _).2 hon)]
    · rw [State.retirePlate_called p m h hst]
    · rw [State.retirePlate_racked p m h hst, if_neg hcount]
    · rw [State.retirePlate_racked p m h hst, if_pos hcount]

/-- Settles O28, by the rows of R28: off the stage, RELEASING, and on the stage without or with a hold. -/
theorem releaseIsGrantedOrHeld : Obligations.ReleaseIsGrantedOrHeld := by
  intro s p m rest slot hasks u
  rw [exec_releasePlate_of_asks hasks]
  simp only [← State.plate_taken s p rest slot]
  refine ⟨fun h => ?_, fun pl h => ⟨fun hoff => ?_, fun hst => ?_, fun hst hno => ?_, fun hst hhold => ?_⟩⟩
  · rw [State.releasePlate_free p m h]
  · rw [State.releasePlate_offStage p m h ((PlateState.onStage_eq_false_iff _).2 hoff)]
  · rw [State.releasePlate_releasing p m h hst]
  · rw [State.releasePlate_onStage p m h (by tauto), if_neg (by simp [hno])]
  · rw [State.releasePlate_onStage p m h hst, if_pos hhold]

end Machine
end Sys2Proof
end

section
/-! SUBMIT_PROGRAM of chapter 03: the checks of R49 in their order, the reserve that decides the ninth of them (01 R10),
and the effects of an accepted submission (R55). Each check has one equation, under what the checks before it have found;
the command is the effect of their outcome on the state with the message taken. -/

namespace Sys2Proof.Machine

/-! ### What a submission is judged on is as it was before the message was taken -/

@[simp] theorem State.heldTags_taken (s : State) (p : Port) (rest : List Message) :
    (s.taken p rest).heldTags = s.heldTags := by simp [State.heldTags]

@[simp] theorem State.chooseTag_taken (s : State) (p : Port) (rest : List Message) :
    (s.taken p rest).chooseTag = s.chooseTag := by simp [State.chooseTag]

/-! ### The first entry of a list that fails a test -/

section FirstFailing

variable {α : Type} {l : List α} {good : α → Bool}

theorem findIdx?_first_failing {k : Nat} {x : α} (hat : l[k]? = some x) (hbad : good x = false)
    (hbefore : ∀ j y, j < k → l[j]? = some y → good y = true) : l.findIdx? (fun y => !good y) = some k :=
  findIdx?_first hat (by simp [hbad]) (fun j y hj hy => by simp [hbefore j y hj hy])

theorem findIdx?_failing_eq_none (hall : ∀ x ∈ l, good x = true) : l.findIdx? (fun y => !good y) = none :=
  List.findIdx?_eq_none_iff.2 (fun x hx => by simp [hall x hx])

end FirstFailing

/-! ### Checks 1 to 8, in the order of the table of R49

Each check is judged where the ones above it have passed, so what they found is carried along as the section's variables. -/

section Checks

variable {s : State} {f : SubmitFields}

theorem State.checkSubmit_noPlate (hfree : s.plate f.slot = none) : s.checkSubmit f = .inl .noPlate := by
  simp [State.checkSubmit, hfree]

variable {pl : Plate} (hplate : s.plate f.slot = some pl)
include hplate

theorem State.checkSubmit_queueFull (hfull : 8 ≤ s.programs.length) : s.checkSubmit f = .inl .queueFull := by
  simp [State.checkSubmit, hplate, hfull]

variable (hroom : s.programs.length < 8)
include hroom

theorem State.checkSubmit_noCal (hnone : s.cal.params = none) : s.checkSubmit f = .inl .noCal := by
  simp [State.checkSubmit, hplate, hroom, hnone]

variable {c : CalParams} (hcal : s.cal.params = some c)
include hcal

theorem State.checkSubmit_badField {offset : Nat} (hbad : f.header = .inl offset) :
    s.checkSubmit f = .inl (.badField offset) := by
  simp [State.checkSubmit, hplate, hroom, hcal, hbad]

variable {h : HeaderNames} (hheader : f.header = .inr h)
include hheader

theorem State.checkSubmit_badBracket {k : Nat} {b : BracketField} (hat : f.brackets[k]? = some b) (hbad : b.good = false)
    (hbefore : ∀ j x, j < k → f.brackets[j]? = some x → x.good = true) : s.checkSubmit f = .inl (.badBracket k) := by
  simp only [State.checkSubmit, hplate, if_neg (Nat.not_le.2 hroom), hcal, hheader,
    findIdx?_first_failing hat hbad hbefore]

variable (hbrackets : ∀ b ∈ f.brackets, b.good = true)
include hbrackets

theorem State.checkSubmit_badTile {k : Nat} {d : TileDesc} (hat : f.tiles[k]? = some d)
    (hbad : d.good pl.sizeClass f.bracketCount c.width = false)
    (hbefore : ∀ j x, j < k → f.tiles[j]? = some x → x.good pl.sizeClass f.bracketCount c.width = true) :
    s.checkSubmit f = .inl (.badTile k) := by
  have hfirst := findIdx?_first_failing (good := fun d => d.good pl.sizeClass f.bracketCount c.width) hat hbad hbefore
  simp only [State.checkSubmit, hplate, if_neg (Nat.not_le.2 hroom), hcal, hheader, findIdx?_failing_eq_none hbrackets,
    hfirst]

variable (htiles : ∀ d ∈ f.tiles, d.good pl.sizeClass f.bracketCount c.width = true)
include htiles

theorem State.checkSubmit_badExposure {k : Nat} {b : BracketField} (hat : f.brackets[k]? = some b)
    (hbad : stepsLegal c b.steps = false)
    (hbefore : ∀ j x, j < k → f.brackets[j]? = some x → stepsLegal c x.steps = true) :
    s.checkSubmit f = .inl (.badExposure k) := by
  have hfirst := findIdx?_first_failing (good := fun b => stepsLegal c b.steps) hat hbad hbefore
  simp only [State.checkSubmit, hplate, if_neg (Nat.not_le.2 hroom), hcal, hheader, findIdx?_failing_eq_none hbrackets,
    findIdx?_failing_eq_none htiles, hfirst]

variable (htimes : ∀ b ∈ f.brackets, stepsLegal c b.steps = true)
include htimes

/-- Once every exposure time is legal, check 8 alone is left: a CRACKED plate needs its carrier. -/
theorem State.checkSubmit_carrier :
    s.checkSubmit f =
      if pl.condition = .cracked ∧ pl.carrier = false then .inl .needsCarrier else .inr (pl, c, f.content h) := by
  simp only [State.checkSubmit, hplate, if_neg (Nat.not_le.2 hroom), hcal, hheader, findIdx?_failing_eq_none hbrackets,
    findIdx?_failing_eq_none htiles, findIdx?_failing_eq_none htimes]

theorem State.checkSubmit_needsCarrier (hcracked : pl.condition = .cracked) (hno : pl.carrier = false) :
    s.checkSubmit f = .inl .needsCarrier :=
  (State.checkSubmit_carrier hplate hroom hcal hheader hbrackets htiles htimes).trans (if_pos ⟨hcracked, hno⟩)

theorem State.checkSubmit_passed (hok : pl.condition ≠ .cracked ∨ pl.carrier = true) :
    s.checkSubmit f = .inr (pl, c, f.content h) :=
  (State.checkSubmit_carrier hplate hroom hcal hheader hbrackets htiles htimes).trans
    (if_neg (by simpa [imp_iff_not_or] using hok))

end Checks

/-! ### The reserve (01 R10) -/

theorem Plate.reserve_of_le {pl : Plate} {estimate : Nat} (hle : estimate ≤ pl.remainder) (tag : Nat) :
    pl.reserve tag estimate = some
      { pl with reservations := pl.reservations ++ [{ tag := tag, remaining := estimate }]
                programCount := pl.programCount + 1 } :=
  if_pos hle

theorem Plate.reserve_of_lt {pl : Plate} {estimate : Nat} (hlt : pl.remainder < estimate) (tag : Nat) :
    pl.reserve tag estimate = none :=
  if_neg (Nat.not_le.2 hlt)

/-! ### What the outcome of the checks brings about (03 R49, R55) -/

section Outcome

variable {s : State} {f : SubmitFields} {pl : Plate} {c : CalParams} {content : Submission} (p : Port) (m : Message)

theorem State.submitProgram_refused {refusal : SubmitRefusal} (hcheck : s.checkSubmit f = .inl refusal) :
    s.submitProgram p m f = s.refuseSubmit p m refusal := by
  simp [State.submitProgram, hcheck]

variable (hcheck : s.checkSubmit f = .inr (pl, c, content))
include hcheck

theorem State.submitProgram_doseLimit (hlt : pl.remainder < estimateOf c content) :
    s.submitProgram p m f = s.reply p m .doseLimit (.dose (estimateOf c content) pl.remainder) := by
  simp [State.submitProgram, hcheck, Plate.reserve_of_lt hlt]

theorem State.submitProgram_accepted (hle : estimateOf c content ≤ pl.remainder) :
    s.submitProgram p m f = s.acceptSubmit p m
      { pl with reservations := pl.reservations ++ [{ tag := s.chooseTag, remaining := estimateOf c content }]
                programCount := pl.programCount + 1 } content s.chooseTag (estimateOf c content) := by
  simp [State.submitProgram, hcheck, Plate.reserve_of_le hle]

end Outcome

/-- The tag counter after an acceptance is the value after the tag, with 65535 followed by 1 (03 R56). -/
theorem nextTag_eq (t : Nat) : nextTag t = if t < 65535 then t + 1 else 1 := by
  unfold nextTag
  split <;> split <;> omega

/-! ### The command -/

section Command

variable {s : State} {p : Port} {m : Message} {rest : List Message} {f : SubmitFields}

theorem exec_submitProgram_of_asks (hasks : Asks s p m rest (.submitProgram f)) :
    exec (.submitProgram p) s = .next ((s.taken p rest).submitProgram p m f) :=
  congrArg Host.Outcome.next (State.taking_of_asks hasks _)

theorem exec_submitProgram_refused (hasks : Asks s p m rest (.submitProgram f)) {refusal : SubmitRefusal}
    (hcheck : (s.taken p rest).checkSubmit f = .inl refusal) :
    exec (.submitProgram p) s = .next ((s.taken p rest).refuseSubmit p m refusal) :=
  (exec_submitProgram_of_asks hasks).trans (congrArg _ (State.submitProgram_refused p m hcheck))

end Command

/-! ### The obligations

The checks see the plates, the queue and the calibration record, which the taking of the message leaves as they were
(`State.plate_taken`, `State.taken_rest`). -/

/-- Settles O35, by the checks of R49 in order: each refusal is judged where the checks above it have passed. -/
theorem submitRefusesByFirstFailingCheck : Obligations.SubmitRefusesByFirstFailingCheck := by
  intro s p m rest f hasks u
  have refused {refusal : SubmitRefusal} := exec_submitProgram_refused hasks (refusal := refusal)
  have hprograms : u.programs = s.programs := by simp [u]
  have hparams : u.cal.params = s.cal.params := by simp [u]
  rw [← State.plate_taken s p rest f.slot, ← hprograms, ← hparams]
  refine ⟨fun hfree => ?noPlate, fun pl hplate => ⟨fun hfull => ?queueFull, fun hroom =>
    ⟨fun hnone => ?noCal, fun c hcal => ⟨fun offset hbad => ?badField, fun h hheader =>
    ⟨fun k b hat hbad hbefore => ?badBracket, fun hbrackets => ⟨fun k d hat hbad hbefore => ?badTile, fun htiles =>
    ⟨fun k b hat hbad hbefore => ?badExposure, fun htimes =>
    ⟨fun hcracked hno => ?needsCarrier, fun hok hlt => ?doseLimit⟩⟩⟩⟩⟩⟩⟩⟩
  case noPlate => exact refused (State.checkSubmit_noPlate hfree)
  case queueFull => exact refused (State.checkSubmit_queueFull hplate hfull)
  case noCal => exact refused (State.checkSubmit_noCal hplate hroom hnone)
  case badField => exact refused (State.checkSubmit_badField hplate hroom hcal hbad)
  case badBracket => exact refused (State.checkSubmit_badBracket hplate hroom hcal hheader hat hbad hbefore)
  case badTile => exact refused (State.checkSubmit_badTile hplate hroom hcal hheader hbrackets hat hbad hbefore)
  case badExposure =>
    exact refused (State.checkSubmit_badExposure hplate hroom hcal hheader hbrackets htiles hat hbad hbefore)
  case needsCarrier =>
    exact refused (State.checkSubmit_needsCarrier hplate hroom hcal hheader hbrackets htiles htimes hcracked hno)
  case doseLimit =>
    have hpass := State.checkSubmit_passed hplate hroom hcal hheader hbrackets htiles htimes hok
    exact (exec_submitProgram_of_asks hasks).trans (congrArg _ (State.submitProgram_doseLimit p m hpass hlt))

/-- Settles O36: every check passes, the reserve is granted, and the acceptance is the one of R55. -/
theorem submitAcceptsAndReserves : Obligations.SubmitAcceptsAndReserves := by
  intro s p m rest f pl c h hasks hplate hroom hcal hheader hbrackets htiles htimes hok hle u tag estimate
  have hprograms : u.programs = s.programs := by simp [u]
  have htag : u.chooseTag = tag := State.chooseTag_taken s p rest
  have hpass : u.checkSubmit f = .inr (pl, c, f.content h) :=
    State.checkSubmit_passed (by simpa [u] using hplate) (by simpa [u] using hroom) (by simpa [u] using hcal) hheader
      hbrackets htiles htimes hok
  rw [exec_submitProgram_of_asks hasks, State.submitProgram_accepted p m hpass hle, State.acceptSubmit, htag, hprograms,
    nextTag_eq]
  rfl

end Sys2Proof.Machine
end

section
/-! Exposure times, dose costs and LOG (04 R81, R82; 06 R130). Both branches of R81 are one rounded quotient, and LOG is
a search bit by bit whose result is bracketed from below and from above. -/

namespace Sys2Proof.Machine

/-! ### Rounding -/

/-- Half of an even divisor added before the division rounds to the nearest integer, an exact half upward. -/
theorem add_half_div_nearest {h d : Nat} (x : Nat) (hd : d = 2 * h) (hpos : 0 < h) :
    d * (2 * ((x + h) / d)) ≤ 2 * x + d ∧ 2 * x + d < d * (2 * ((x + h) / d) + 2) := by
  have hle : d * ((x + h) / d) ≤ x + h := Nat.mul_div_le _ _
  have hlt : x + h < d * ((x + h) / d + 1) := Nat.lt_mul_div_succ _ (by omega)
  constructor <;> linarith

/-! ### Exposure times (04 R81) -/

theorem multiplier_of_mem {j M : Nat} (hM : (j, M) ∈ [(0, 4096), (1, 4467), (2, 4871), (3, 5312), (4, 5793), (5, 6317),
    (6, 6889), (7, 7512)]) : j < 8 ∧ multiplier j = M := by
  simp only [List.mem_cons, Prod.mk.injEq, List.not_mem_nil, or_false] at hM
  obtain ⟨rfl, rfl⟩ | ⟨rfl, rfl⟩ | ⟨rfl, rfl⟩ | ⟨rfl, rfl⟩ | ⟨rfl, rfl⟩ | ⟨rfl, rfl⟩ | ⟨rfl, rfl⟩ | ⟨rfl, rfl⟩ := hM <;>
    decide

section ExposureTime

variable {j : Nat} (tRef q : Nat) (hj : j < 8)
include hj

theorem exposureTime_up :
    exposureTime tRef (8 * (q : Int) + j) = (tRef * multiplier j * 2 ^ q + 2048) / 4096 := by
  have hdiv : (8 * (q : Int) + j) / 8 = q := by omega
  have hmod : (8 * (q : Int) + j) % 8 = j := by omega
  simp only [exposureTime, hdiv, hmod, if_pos (Int.natCast_nonneg q), Int.toNat_natCast]

/-- At q = 0 this is `exposureTime_up`, whose divisor is the same. -/
theorem exposureTime_down :
    exposureTime tRef (8 * (-(q : Int)) + j) = (tRef * multiplier j + 2048 * 2 ^ q) / (4096 * 2 ^ q) := by
  obtain rfl | hq := Nat.eq_zero_or_pos q
  · simpa using exposureTime_up tRef 0 hj
  · have hdiv : (8 * (-(q : Int)) + j) / 8 = -q := by omega
    have hmod : (8 * (-(q : Int)) + j) % 8 = j := by omega
    have hneg : ¬ (0 : Int) ≤ -q := by omega
    have hhalf : 4096 * 2 ^ q / 2 = 2048 * 2 ^ q := by omega
    simp only [exposureTime, hdiv, hmod, if_neg hneg, neg_neg, Int.toNat_natCast, hhalf]

end ExposureTime

/-! ### Dose costs (04 R82) -/

theorem exposureCost_ceiling (level t : Nat) :
    level * t ≤ 1000 * exposureCost level t ∧ 1000 * exposureCost level t < level * t + 1000 := by
  unfold exposureCost
  omega

/-! ### LOG (06 R130) -/

/-- The search takes a bit only where the power stays at most 2x, so it never goes past 2x. -/
theorem logBits_le {x k n : Nat} (hn : 2 ^ (2 * n) ≤ 2 * x) : 2 ^ (2 * logBits x k n) ≤ 2 * x := by
  induction k generalizing n with
  | zero => exact hn
  | succ k ih =>
    rw [logBits]
    split
    · next hbit => exact ih hbit
    · exact ih hn

/-- A bit left out would go past 2x: where all `k` bits reach past 2x, the successor of the number found does. -/
theorem lt_logBits_succ {x k n : Nat} (hn : 2 * x < 2 ^ (2 * (n + 2 ^ k))) :
    2 * x < 2 ^ (2 * (logBits x k n + 1)) := by
  induction k generalizing n with
  | zero => exact hn
  | succ k ih =>
    rw [logBits]
    split
    · exact ih (by rwa [Nat.add_assoc, ← Nat.two_mul, ← Nat.pow_succ'])
    · next hbit => exact ih (Nat.lt_of_not_le hbit)

/-- Searched from the highest bit with enough bits, the number found is the nearest one. -/
theorem logBits_nearest {x k : Nat} (hpos : 1 ≤ x) (hbits : 2 * x < 2 ^ (2 * 2 ^ k)) :
    2 ^ (2 * logBits x k 0) ≤ 2 * x ∧ x < 2 ^ (2 * logBits x k 0 + 1) := by
  have hlt : 2 * x < 2 ^ (2 * (logBits x k 0 + 1)) := lt_logBits_succ (by rwa [Nat.zero_add])
  rw [Nat.mul_add_one, Nat.pow_succ'] at hlt
  exact ⟨logBits_le (by omega), Nat.lt_of_mul_lt_mul_left hlt⟩

theorem two_mul_pow_lt {v w m e : Nat} (hv : v ≤ 2 ^ w) (he : w * m + 1 < e) : 2 * v ^ m < 2 ^ e :=
  calc 2 * v ^ m ≤ 2 * (2 ^ w) ^ m := Nat.mul_le_mul_left 2 (Nat.pow_le_pow_left hv m)
    _ = 2 ^ (w * m + 1) := by rw [← Nat.pow_mul, Nat.pow_succ']
    _ < 2 ^ e := Nat.pow_lt_pow_right Nat.one_lt_two he

/-- An argument of LOG has 14 bits, so the 15 bits of the search are enough. -/
theorem logOf_nearest (v : Nat) (hpos : 1 ≤ v) (hv : v ≤ 16383) :
    2 ^ (2 * logOf v) ≤ 2 * v ^ 2048 ∧ v ^ 2048 < 2 ^ (2 * logOf v + 1) :=
  logBits_nearest (one_le_pow₀ hpos) (two_mul_pow_lt (w := 14) (by omega) (by norm_num))

/-- Settles O59, by the rounded quotient of each branch of R81, the ceiling of R82 and the two sides of the search for
LOG. -/
theorem timesCostsAndLogsAreRounded : Obligations.TimesCostsAndLogsAreRounded := by
  refine ⟨fun tRef q j M hM => ?times, exposureCost_ceiling, logOf_nearest⟩
  obtain ⟨hj, rfl⟩ := multiplier_of_mem hM
  rw [exposureTime_up tRef q hj, exposureTime_down tRef q hj]
  exact ⟨add_half_div_nearest _ rfl (by omega), add_half_div_nearest _ (by omega) (by positivity)⟩

end Sys2Proof.Machine
end

section
/-! The density arithmetic of chapter 06: rounding (R138), the class of a sample (R131, R132), and the class and code that
a bracket of any length gives (R133 to R136, R139, R140). A bracket of one or two exposures is a case of the latter. -/

namespace Sys2Proof.Machine

/-! ### Rounding (06 R138) -/

theorem roundQuotient_down_bounds (n : Int) {d : Int} (hd : 0 < d) :
    roundQuotient .down n d * d ≤ n ∧ n < (roundQuotient .down n d + 1) * d :=
  ⟨Int.ediv_mul_le n hd.ne', Int.lt_ediv_add_one_mul_self n hd⟩

/-- Rounding up is rounding the opposite number down. -/
theorem roundQuotient_up_bounds (n : Int) {d : Int} (hd : 0 < d) :
    (roundQuotient .up n d - 1) * d < n ∧ n ≤ roundQuotient .up n d * d := by
  have hup : roundQuotient .up n d = -roundQuotient .down (-n) d := rfl
  obtain ⟨hle, hlt⟩ := roundQuotient_down_bounds (-n) hd
  rw [hup]
  constructor <;> linarith only [hle, hlt]

theorem roundQuotient_toZero_of_nonneg {n : Int} (d : Int) (hn : 0 ≤ n) :
    roundQuotient .toZero n d = roundQuotient .down n d :=
  Int.tdiv_eq_ediv_of_nonneg hn

theorem roundQuotient_toZero_of_nonpos {n : Int} (d : Int) (hn : n ≤ 0) :
    roundQuotient .toZero n d = roundQuotient .up n d := by
  have hneg : Int.tdiv (-n) d = (-n) / d := Int.tdiv_eq_ediv_of_nonneg (by omega)
  rw [Int.neg_tdiv] at hneg
  simp only [roundQuotient]
  omega

theorem roundQuotient_toZero_bounds (n : Int) {d : Int} (hd : 0 < d) :
    (0 ≤ n → roundQuotient .toZero n d * d ≤ n ∧ n < (roundQuotient .toZero n d + 1) * d) ∧
    (n ≤ 0 → n ≤ roundQuotient .toZero n d * d ∧ (roundQuotient .toZero n d - 1) * d < n) := by
  constructor
  · intro hn
    rw [roundQuotient_toZero_of_nonneg d hn]
    exact roundQuotient_down_bounds n hd
  · intro hn
    rw [roundQuotient_toZero_of_nonpos d hn]
    exact (roundQuotient_up_bounds n hd).symm

/-- The branches compare twice the remainder with the denominator; where they are equal the even neighbour is taken. -/
theorem roundQuotient_nearestEven_bounds (n : Int) {d : Int} (hd : 0 < d) :
    let q := roundQuotient .nearestEven n d
    2 * (q * d) - d ≤ 2 * n ∧ 2 * n ≤ 2 * (q * d) + d ∧
      (2 * n = 2 * (q * d) - d ∨ 2 * n = 2 * (q * d) + d → q % 2 = 0) := by
  have hdiv : n / d * d + n % d = n := Int.ediv_mul_add_emod n d
  have hnonneg : 0 ≤ n % d := Int.emod_nonneg n hd.ne'
  have hlt : n % d < d := Int.emod_lt_of_pos n hd
  have hsucc : (n / d + 1) * d = n / d * d + d := by rw [Int.add_mul, Int.one_mul]
  simp only [roundQuotient]
  split
  case isTrue below => omega
  case isFalse =>
    split
    case isTrue above => rw [hsucc]; omega
    case isFalse =>
      split
      case isTrue even => omega
      case isFalse odd => rw [hsucc]; omega

/-! ### The state of an exposure at a sample (06 R131) -/

/-- A raw value below saturation whose net value reaches FLOOR. -/
def DensityParams.Valid (P : DensityParams) (r : Nat) : Prop := r < P.sat ∧ P.floor ≤ r - P.dark

theorem exposureStateOf_eq_saturated_iff {P : DensityParams} {r : Nat} :
    exposureStateOf P r = .saturated ↔ P.sat ≤ r := by
  unfold exposureStateOf
  split_ifs <;> simp_all

theorem exposureStateOf_eq_valid_iff {P : DensityParams} {r : Nat} : exposureStateOf P r = .valid ↔ P.Valid r := by
  unfold exposureStateOf netOf DensityParams.Valid
  split_ifs <;> simp_all

theorem exposureStateOf_eq_belowFloor_iff {P : DensityParams} {r : Nat} :
    exposureStateOf P r = .belowFloor ↔ r < P.sat ∧ r - P.dark < P.floor := by
  unfold exposureStateOf netOf
  split_ifs <;> simp_all

/-! ### The class of a sample (06 R132) -/

section
variable {P : DensityParams} {raws : List Nat}

theorem all_saturated_iff : (raws.map (exposureStateOf P)).all (fun t => decide (t = .saturated)) = true ↔
    ∀ r ∈ raws, P.sat ≤ r := by
  simp [exposureStateOf_eq_saturated_iff]

theorem all_belowFloor_iff : (raws.map (exposureStateOf P)).all (fun t => decide (t = .belowFloor)) = true ↔
    ∀ r ∈ raws, r < P.sat ∧ r - P.dark < P.floor := by
  simp [exposureStateOf_eq_belowFloor_iff]

theorem any_valid_iff : (raws.map (exposureStateOf P)).any (fun t => decide (t = .valid)) = true ↔
    ∃ r ∈ raws, P.Valid r := by
  simp [exposureStateOf_eq_valid_iff]

theorem classOf_eq_under (h : ∀ r ∈ raws, P.sat ≤ r) : classOf (raws.map (exposureStateOf P)) = .under :=
  if_pos (all_saturated_iff.2 h)

/-- An exposure below FLOOR is not saturated, so a bracket that has one is not UNDER. -/
theorem classOf_eq_above (hne : raws ≠ []) (h : ∀ r ∈ raws, r < P.sat ∧ r - P.dark < P.floor) :
    classOf (raws.map (exposureStateOf P)) = .above := by
  obtain ⟨r, hr⟩ := List.exists_mem_of_ne_nil raws hne
  have hunsat : ¬ ∀ r ∈ raws, P.sat ≤ r := fun hall => (h r hr).1.not_ge (hall r hr)
  rw [classOf, if_neg (mt all_saturated_iff.1 hunsat), if_pos (all_belowFloor_iff.2 h)]

/-- A valid exposure is neither saturated nor below FLOOR. -/
theorem classOf_eq_normal {r : Nat} (hr : r ∈ raws) (hvalid : P.Valid r) :
    classOf (raws.map (exposureStateOf P)) = .normal := by
  have hunsat : ¬ ∀ r ∈ raws, P.sat ≤ r := fun hall => hvalid.1.not_ge (hall r hr)
  have hfloor : ¬ ∀ r ∈ raws, r < P.sat ∧ r - P.dark < P.floor := fun hall => hvalid.2.not_gt (hall r hr).2
  rw [classOf, if_neg (mt all_saturated_iff.1 hunsat), if_neg (mt all_belowFloor_iff.1 hfloor),
    if_pos (any_valid_iff.2 ⟨r, hr, hvalid⟩)]

/-- No exposure is valid, and one is saturated and another is not. -/
theorem classOf_eq_gap {r t : Nat} (hr : r ∈ raws) (hunsat : r < P.sat) (ht : t ∈ raws) (hsat : P.sat ≤ t)
    (hnone : ∀ x ∈ raws, ¬ P.Valid x) : classOf (raws.map (exposureStateOf P)) = .gap := by
  have hall : ¬ ∀ r ∈ raws, P.sat ≤ r := fun hall => hunsat.not_ge (hall r hr)
  have hfloor : ¬ ∀ r ∈ raws, r < P.sat ∧ r - P.dark < P.floor := fun hall => hsat.not_gt (hall t ht).1
  have hvalid : ¬ ∃ r ∈ raws, P.Valid r := fun ⟨x, hx, hv⟩ => hnone x hx hv
  rw [classOf, if_neg (mt all_saturated_iff.1 hall), if_neg (mt all_belowFloor_iff.1 hfloor),
    if_neg (mt any_valid_iff.1 hvalid)]

end

/-! ### Base subtraction and the clamps (06 R139) -/

theorem fifthStage_code_le (P : DensityParams) (c : SampleClass) (q : Int) : (fifthStage P c q).2 ≤ 65000 := by
  unfold fifthStage
  dsimp only
  split_ifs <;> simp only <;> omega

/-- A sample that comes to the fifth stage with class `c` and rounded quotient `q` leaves it by one of three rows. -/
theorem fifthStage_rows {P : DensityParams} {c : SampleClass} {q : Int} {y : SampleClass × Nat}
    (hy : y = fifthStage P c q) :
    let v := q - (P.fog.getD 0 : Nat)
    (v < 0 → y = (if c = .normal then .neg else c, 0)) ∧
    (65000 < v → y = (if c = .normal then .ceil else c, 65000)) ∧
    (0 ≤ v → v ≤ 65000 → y = (c, v.toNat)) := by
  intro v
  subst hy
  refine ⟨fun hneg => if_pos hneg, fun hceil => ?_, fun hlo hhi => ?_⟩
  · exact (if_neg (by omega : ¬ v < 0)).trans (if_pos hceil)
  · exact (if_neg hlo.not_gt).trans (if_neg hhi.not_gt)

/-! ### The class and code by the class of the second stage (06 R132, R140) -/

theorem density_under {P : DensityParams} {cal : Nat} {raws : List Nat}
    (hc : classOf (raws.map (exposureStateOf P)) = .under) :
    density P cal raws = (.under, if P.marking then 65534 else 0) := by
  simp only [density, hc]

theorem density_above_marked {P : DensityParams} {cal : Nat} {raws : List Nat}
    (hc : classOf (raws.map (exposureStateOf P)) = .above) (hmark : P.marking = true) :
    density P cal raws = (.above, 65535) := by
  simp only [density, hc, hmark, and_self, if_true]

/-- Every other sample goes through the third, fourth and fifth stages. -/
theorem density_eq_fifthStage {P : DensityParams} {cal : Nat} {raws : List Nat} {c : SampleClass}
    (hc : classOf (raws.map (exposureStateOf P)) = c) (hunder : c ≠ .under)
    (habove : c = .above → P.marking = false) :
    density P cal raws = fifthStage P c (roundQuotient P.rounding (thirdStage P cal c (P.steps.zip raws)).1
      (thirdStage P cal c (P.steps.zip raws)).2) := by
  have hstage : ¬ (c = .above ∧ P.marking = true) := fun ⟨h, hm⟩ => by simp [habove h] at hm
  simp only [density, hc]
  cases c with
  | under => exact absurd rfl hunder
  | _ => exact if_neg hstage

theorem density_code_bounds (P : DensityParams) (cal : Nat) (raws : List Nat) :
    (density P cal raws).2 ≤ 65535 ∧ (P.marking = false → (density P cal raws).2 ≤ 65000) := by
  by_cases hunder : classOf (raws.map (exposureStateOf P)) = .under
  · rw [density_under hunder]
    cases P.marking <;> simp
  by_cases habove : classOf (raws.map (exposureStateOf P)) = .above ∧ P.marking = true
  · rw [density_above_marked habove.1 habove.2]
    simp [habove.2]
  · rw [density_eq_fifthStage rfl hunder fun h => by simpa [h] using habove]
    exact ⟨(fifthStage_code_le P _ _).trans (by norm_num), fun _ => fifthStage_code_le P _ _⟩

/-! ### The exposures that the third stage chooses (06 R133 to R136) -/

theorem filter_append_cons_last {α : Type} {p : α → Bool} {front back : List α} {a : α} (ha : p a = true)
    (hback : back.filter p = []) : (front ++ a :: back).filter p = front.filter p ++ [a] := by
  rw [List.filter_append, List.filter_cons_of_pos ha, hback]

theorem lastTwo_concat {α : Type} (l : List α) (a : α) : lastTwo (l ++ [a]) = (some a, l.getLast?) := by
  rw [lastTwo, List.reverse_concat, List.getLast?_eq_head?_reverse]
  cases l.reverse <;> rfl

section
variable {P : DensityParams} {cal : Nat} {front back : List Seen} {e : Int} {r : Nat}

theorem filter_valid_eq_nil {seen : List Seen} (h : ∀ x ∈ seen, ¬ P.Valid x.2) :
    seen.filter (fun x => decide (exposureStateOf P x.2 = .valid)) = [] := by
  simpa [exposureStateOf_eq_valid_iff] using h

theorem filter_valid_last (hvalid : P.Valid r) (hback : ∀ x ∈ back, ¬ P.Valid x.2) :
    (front ++ (e, r) :: back).filter (fun x => decide (exposureStateOf P x.2 = .valid)) =
      front.filter (fun x => decide (exposureStateOf P x.2 = .valid)) ++ [(e, r)] :=
  filter_append_cons_last (by simpa [exposureStateOf_eq_valid_iff] using hvalid) (filter_valid_eq_nil hback)

/-- One exposure decides: SELECT, or no other valid one. -/
theorem thirdStage_normal_one (hvalid : P.Valid r) (hback : ∀ x ∈ back, ¬ P.Valid x.2)
    (hone : P.mergeMode = .select ∨ ∀ x ∈ front, ¬ P.Valid x.2) :
    thirdStage P cal .normal (front ++ (e, r) :: back) = (logTransmittance cal e (r - P.dark) * 12041, 4096) := by
  simp only [thirdStage, filter_valid_last hvalid hback, lastTwo_concat, netOf]
  rcases hone with hselect | hfront
  · rw [hselect]
    cases (front.filter (fun x => decide (exposureStateOf P x.2 = .valid))).getLast? <;> rfl
  · rw [filter_valid_eq_nil hfront]
    rfl

/-- Two exposures are averaged: BLEND, with (e', r') the last valid one in front. -/
theorem thirdStage_normal_two {before after : List Seen} {e' : Int} {r' : Nat} (hvalid : P.Valid r)
    (hback : ∀ x ∈ back, ¬ P.Valid x.2) (hblend : P.mergeMode = .blend) (hvalid' : P.Valid r')
    (hafter : ∀ x ∈ after, ¬ P.Valid x.2) :
    thirdStage P cal .normal ((before ++ (e', r') :: after) ++ (e, r) :: back) =
      ((logTransmittance cal e (r - P.dark) + logTransmittance cal e' (r' - P.dark)) * 12041, 8192) := by
  simp only [thirdStage, filter_valid_last hvalid hback, lastTwo_concat, filter_valid_last hvalid' hafter,
    List.getLast?_concat, hblend, netOf]

/-- GAP takes the last exposure that is not saturated. -/
theorem thirdStage_gap (hunsat : r < P.sat) (hback : ∀ x ∈ back, P.sat ≤ x.2) :
    thirdStage P cal .gap (front ++ (e, r) :: back) =
      (logTransmittance cal e (max 1 (r - P.dark)) * 12041, 4096) := by
  simp only [thirdStage]
  rw [filter_append_cons_last, List.getLast?_concat]
  · rfl
  · simpa [exposureStateOf_eq_saturated_iff] using hunsat
  · simpa [exposureStateOf_eq_saturated_iff] using hback

end

/-- ABOVE takes FLOOR at the last step. -/
theorem thirdStage_above {P : DensityParams} {e : Int} (cal : Nat) (seen : List Seen)
    (hlast : P.steps.getLast? = some e) :
    thirdStage P cal .above seen = (logTransmittance cal e P.floor * 12041, 4096) := by
  simp only [thirdStage, hlast, Option.getD_some]

/-! ### A bracket of any length (06 R132 to R139) -/

section
variable {P : DensityParams} {raws : List Nat} {front back : List Seen} {e : Int} {r : Nat}

theorem raw_mem_of_zip (hlen : P.steps.length = raws.length) {x : Seen} (hx : x ∈ P.steps.zip raws) : x.2 ∈ raws :=
  List.map_snd_zip hlen.ge ▸ List.mem_map_of_mem hx

theorem forall_raws_of_zip (hlen : P.steps.length = raws.length) {Q : Nat → Prop} (h : ∀ x ∈ P.steps.zip raws, Q x.2) :
    ∀ t ∈ raws, Q t :=
  List.map_snd_zip hlen.ge ▸ List.forall_mem_map.2 h

theorem raw_mem (hlen : P.steps.length = raws.length) (hzip : P.steps.zip raws = front ++ (e, r) :: back) : r ∈ raws :=
  raw_mem_of_zip (x := (e, r)) hlen (hzip ▸ List.mem_append_cons_self)

theorem density_normal_one (cal : Nat) (hlen : P.steps.length = raws.length)
    (hzip : P.steps.zip raws = front ++ (e, r) :: back) (hvalid : P.Valid r) (hback : ∀ x ∈ back, ¬ P.Valid x.2)
    (hone : P.mergeMode = .select ∨ ∀ x ∈ front, ¬ P.Valid x.2) :
    density P cal raws =
      fifthStage P .normal (roundQuotient P.rounding (logTransmittance cal e (r - P.dark) * 12041) 4096) := by
  rw [density_eq_fifthStage (classOf_eq_normal (raw_mem hlen hzip) hvalid) nofun nofun, hzip,
    thirdStage_normal_one hvalid hback hone]

theorem density_normal_two {before after : List Seen} {e' : Int} {r' : Nat} (cal : Nat)
    (hlen : P.steps.length = raws.length)
    (hzip : P.steps.zip raws = (before ++ (e', r') :: after) ++ (e, r) :: back) (hvalid : P.Valid r)
    (hback : ∀ x ∈ back, ¬ P.Valid x.2) (hblend : P.mergeMode = .blend) (hvalid' : P.Valid r')
    (hafter : ∀ x ∈ after, ¬ P.Valid x.2) :
    density P cal raws = fifthStage P .normal (roundQuotient P.rounding
      ((logTransmittance cal e (r - P.dark) + logTransmittance cal e' (r' - P.dark)) * 12041) 8192) := by
  rw [density_eq_fifthStage (classOf_eq_normal (raw_mem hlen hzip) hvalid) nofun nofun, hzip,
    thirdStage_normal_two hvalid hback hblend hvalid' hafter]

theorem density_gap (cal : Nat) (hlen : P.steps.length = raws.length)
    (hzip : P.steps.zip raws = front ++ (e, r) :: back)
    (hnone : ∀ x ∈ front ++ (e, r) :: back, ¬ P.Valid x.2) (hunsat : r < P.sat)
    (hback : ∀ x ∈ back, P.sat ≤ x.2) (hsat : ∃ x ∈ front ++ back, P.sat ≤ x.2) :
    density P cal raws =
      fifthStage P .gap (roundQuotient P.rounding (logTransmittance cal e (max 1 (r - P.dark)) * 12041) 4096) := by
  obtain ⟨x, hx, hxsat⟩ := hsat
  have hxmem : x ∈ P.steps.zip raws := by
    rw [hzip]
    simp only [List.mem_append, List.mem_cons] at hx ⊢
    tauto
  have hclass : classOf (raws.map (exposureStateOf P)) = .gap :=
    classOf_eq_gap (raw_mem hlen hzip) hunsat (raw_mem_of_zip hlen hxmem) hxsat
      (forall_raws_of_zip hlen (hzip ▸ hnone))
  rw [density_eq_fifthStage hclass nofun nofun, hzip, thirdStage_gap hunsat hback]

theorem density_above_unmarked (cal : Nat) (hlen : P.steps.length = raws.length)
    (hzip : P.steps.zip raws = front ++ [(e, r)])
    (hbelow : ∀ x ∈ front ++ [(e, r)], x.2 < P.sat ∧ x.2 - P.dark < P.floor) (hmark : P.marking = false) :
    density P cal raws =
      fifthStage P .above (roundQuotient P.rounding (logTransmittance cal e P.floor * 12041) 4096) := by
  have hsteps : P.steps = front.map Prod.fst ++ [e] := by
    rw [← List.map_fst_zip hlen.le, hzip, List.map_append]
    rfl
  have hclass : classOf (raws.map (exposureStateOf P)) = .above :=
    classOf_eq_above (List.ne_nil_of_mem (raw_mem hlen hzip)) (forall_raws_of_zip hlen (hzip ▸ hbelow))
  rw [density_eq_fifthStage hclass nofun fun _ => hmark, thirdStage_above cal _ (hsteps ▸ List.getLast?_concat)]

end

/-! ### Brackets of one and of two exposures -/

theorem density_single {P : DensityParams} {r : Nat} {e : Int} (cal : Nat) (hsteps : P.steps = [e])
    (hvalid : P.Valid r) :
    density P cal [r] =
      fifthStage P .normal (roundQuotient P.rounding (logTransmittance cal e (r - P.dark) * 12041) 4096) :=
  density_normal_one (front := []) (back := []) cal (by rw [hsteps]; rfl) (by rw [hsteps]; rfl) hvalid nofun (.inr nofun)

theorem density_pair {P : DensityParams} {r₁ r₂ : Nat} {e₁ e₂ : Int} (cal : Nat) (hsteps : P.steps = [e₁, e₂])
    (hvalid₁ : P.Valid r₁) (hvalid₂ : P.Valid r₂) :
    density P cal [r₁, r₂] = fifthStage P .normal
      (if P.mergeMode = .select then roundQuotient P.rounding (logTransmittance cal e₂ (r₂ - P.dark) * 12041) 4096
       else roundQuotient P.rounding
         ((logTransmittance cal e₁ (r₁ - P.dark) + logTransmittance cal e₂ (r₂ - P.dark)) * 12041) 8192) := by
  have hlen : P.steps.length = [r₁, r₂].length := by rw [hsteps]; rfl
  have hzip : P.steps.zip [r₁, r₂] = ([] ++ (e₁, r₁) :: []) ++ (e₂, r₂) :: [] := by rw [hsteps]; rfl
  cases hmode : P.mergeMode with
  | select => exact density_normal_one cal hlen hzip hvalid₂ nofun (.inl hmode)
  | blend =>
    rw [if_neg nofun, Int.add_comm (logTransmittance cal e₁ _)]
    exact density_normal_two cal hlen hzip hvalid₂ nofun hmode hvalid₁ nofun

/-! ### The obligation -/

/-- Settles O60, by the bounds of each rounding mode and by the class of the second stage: it says which exposures the
third stage takes, and the fifth stage has one row per range of its result. -/
theorem densityRoundsAndClasses : Obligations.DensityRoundsAndClasses := by
  refine ⟨fun n d q hd => ?rounding, fun P cal raws => ?classes, fun P cal r e hsteps hsat hfloor => ?single,
    fun P cal r₁ r₂ e₁ e₂ hsteps hsat₁ hsat₂ hfloor₁ hfloor₂ => ?pair,
    fun P cal front back e r raws hlen hzip => ⟨fun hvalid hback => ⟨fun hone => ?one, ?two⟩, ?gap, ?above⟩⟩
  case rounding =>
    refine ⟨?_, ?_, ?_, ?_⟩ <;> rintro rfl
    · exact roundQuotient_nearestEven_bounds n hd
    · exact roundQuotient_toZero_bounds n hd
    · exact roundQuotient_up_bounds n hd
    · exact roundQuotient_down_bounds n hd
  case classes =>
    obtain ⟨hcode, hunmarked⟩ := density_code_bounds P cal raws
    exact ⟨hcode, hunmarked, fun hsat => density_under (classOf_eq_under hsat),
      fun hne hbelow hmark => density_above_marked (classOf_eq_above hne hbelow) hmark⟩
  case single => exact fifthStage_rows (density_single cal hsteps ⟨hsat, hfloor⟩)
  case pair => exact fifthStage_rows (density_pair cal hsteps ⟨hsat₁, hfloor₁⟩ ⟨hsat₂, hfloor₂⟩)
  case one => exact fifthStage_rows (density_normal_one cal hlen hzip hvalid hback hone)
  case two =>
    rintro before ⟨e', r'⟩ after hblend rfl hvalid' hafter
    exact fifthStage_rows (density_normal_two cal hlen hzip hvalid hback hblend hvalid' hafter)
  case gap =>
    exact fun hnone hunsat hback hsat => fifthStage_rows (density_gap cal hlen hzip hnone hunsat hback hsat)
  case above =>
    rintro hbelow rfl hmark
    exact fifthStage_rows (density_above_unmarked cal hlen hzip hbelow hmark)

end Sys2Proof.Machine
end

section
/-! DISCARD_TILE of chapter 07: the rows of R162, in the order of its table. The state of the tile's entry chooses the row;
a COMPLETE tile is held by its reader first, then by a READY pending entry, whichever port asks. -/

namespace Sys2Proof.Machine

/-! ### The READY pending entry of a tile -/

section ReadyEntry

variable {s : State} {id : TileId}

/-- The READY entry of a tile is the first such one of the pending fetch table. -/
theorem State.readyEntry_eq_some_iff {e : PendingEntry} :
    s.readyEntry id = some e ↔ (e.tile = id ∧ e.state = .ready) ∧
      ∃ before after, s.entries = before ++ e :: after ∧ ∀ x ∈ before, x.tile = id → x.state ≠ .ready := by
  simp [State.readyEntry, List.find?_eq_some_iff_append, imp_iff_not_or]

theorem State.readyEntry_eq_none_iff :
    s.readyEntry id = none ↔ ∀ x ∈ s.entries, x.tile = id → x.state ≠ .ready := by
  simp [State.readyEntry]

@[simp] theorem State.readyEntry_taken (s : State) (p : Port) (rest : List Message) (id : TileId) :
    (s.taken p rest).readyEntry id = s.readyEntry id := by simp [State.readyEntry]

end ReadyEntry

/-! ### The rows of R162 -/

section DiscardRows

variable {s : State} {id : TileId} {t : TileEntry} (p : Port) (m : Message)

theorem State.discardTile_unknown (hnone : s.tile? id = none) :
    s.discardTile p m id = s.reply p m .unknownTile := by
  simp [State.discardTile, hnone]

variable (htile : s.tile? id = some t)
include htile

theorem State.discardTile_notComplete (hst : t.state = .capturing ∨ t.state = .mergeWait ∨ t.state = .merging) :
    s.discardTile p m id = s.busyTile p m t none := by
  obtain hst | hst | hst := hst <;> simp [State.discardTile, htile, hst]

theorem State.discardTile_failed (hst : t.state = .failed) :
    s.discardTile p m id = s.settle ((s.removeTile id).reply p m .ok (.pages 0)) := by
  simp [State.discardTile, htile, hst]

variable (hcomplete : t.state = .complete)
include hcomplete

theorem State.discardTile_read {q : Port} {kind : ReadKind} (hreader : t.reader = some (q, kind)) :
    s.discardTile p m id = s.busyTile p m t (some q) := by
  simp [State.discardTile, htile, hcomplete, hreader]

variable (hreader : t.reader = none)
include hreader

theorem State.discardTile_held {e : PendingEntry} (hready : s.readyEntry id = some e) :
    s.discardTile p m id = s.busyTile p m t (some e.port) := by
  simp [State.discardTile, htile, hcomplete, hreader, hready]

/-- A free COMPLETE tile leaves the directory and its output pages return to the free list (07 R147, R162). -/
theorem State.discardTile_free (hready : s.readyEntry id = none) :
    s.discardTile p m id =
      s.settle (((s.returnPages t.output).removeTile id).reply p m .ok (.pages t.output.length)) := by
  simp [State.discardTile, htile, hcomplete, hreader, hready]

end DiscardRows

/-! ### The command and the obligation

The taking of the message leaves the directory, the free list and the pending fetch table as they were
(`State.tile?_taken`, `State.readyEntry_taken`, `State.taken_rest`). -/

theorem exec_discardTile_of_asks {s : State} {p : Port} {m : Message} {rest : List Message} {id : TileId}
    (hasks : Asks s p m rest (.discardTile id)) :
    exec (.discardTile p) s = .next ((s.taken p rest).discardTile p m id) :=
  congrArg Host.Outcome.next (State.taking_of_asks hasks _)

/-- Settles O50, by the state of the tile's entry and, for a COMPLETE tile, by what holds it: a reader, a READY entry or
nothing. -/
theorem discardTileByRows : Obligations.DiscardTileByRows := by
  intro s p m rest id hasks u others
  have hdirectory : u.directory = s.directory := by simp [u]
  have hfreePages : u.freePages = s.freePages := by simp [u]
  have hready : u.readyEntry id = s.readyEntry id := State.readyEntry_taken s p rest id
  rw [exec_discardTile_of_asks hasks, ← State.tile?_taken s p rest id]
  refine ⟨fun hnone => ?unknown, fun t htile => ⟨fun hst => ?notComplete, fun hst =>
    ⟨fun q kind hreader => ?read, fun before e after hreader hentries hid he hbefore => ?held,
      fun hreader hnone => ?free⟩, fun hst => ?failed⟩⟩
  case unknown => rw [State.discardTile_unknown p m hnone]
  case notComplete => rw [State.discardTile_notComplete p m htile hst, State.busyTile]
  case read => rw [State.discardTile_read p m htile hst hreader, State.busyTile, hst]
  case held =>
    have hfirst := State.readyEntry_eq_some_iff.2 ⟨⟨hid, he⟩, before, after, hentries, hbefore⟩
    rw [State.discardTile_held p m htile hst hreader (hready.trans hfirst), State.busyTile, hst]
  case free =>
    rw [State.discardTile_free p m htile hst hreader (hready.trans (State.readyEntry_eq_none_iff.2 hnone)),
      State.removeTile, State.returnPages, hfreePages, hdirectory]
  case failed => rw [State.discardTile_failed p m htile hst, State.removeTile, hdirectory]

end Sys2Proof.Machine
end

section
/-! The burst rule of chapter 08 (R186, R187): when a burst of a drain is due, and where its lines go. A burst that is due
and cannot go on the list waits, so the state is as it was. -/

namespace Sys2Proof.Machine

/-! ### The open read's stream entry on the list -/

theorem PortState.streamStands_eq_false_iff (q : PortState) :
    q.streamStands = false ↔ ∀ e ∈ q.outbound, e.isOpenStream = false := by
  simp [PortState.streamStands]

theorem PortState.streamStands_of_split {q : PortState} {before after : List OutEntry} {x : StreamEntry}
    (hout : q.outbound = before ++ .stream x :: after) (hopen : x.isOpen = true) : q.streamStands = true := by
  simp [PortState.streamStands, hout, OutEntry.isOpenStream, hopen]

/-! ### When a burst is due (08 R186) -/

theorem burstDue_iff (r : Read) (t : TileEntry) :
    burstDue r t = true ↔ r.kind = .drain ∧ r.outcome = none ∧
      (r.threshold.getD 1 ≤ mergedOwed r t ∨ (stillOwed r ≤ mergedOwed r t ∧ 0 < stillOwed r) ∨
        (t.state = .complete ∧ 0 < mergedOwed r t)) := by
  simp [burstDue, and_assoc, or_assoc]

section Burst

variable {s : State} {p : Port} {r : Read} {t : TileEntry}

theorem State.dueBurst_eq (hread : (s.port p).read = some r) (htile : s.tile? r.tile = some t) :
    s.dueBurst p = if burstDue r t then some (r, t) else none := by
  simp [State.dueBurst, hread, htile]

/-! ### Where its lines go (08 R187) -/

theorem State.judgeBurst_notDue (hdue : s.dueBurst p = none) : s.judgeBurst p = s := by
  simp [State.judgeBurst, hdue]

variable (hdue : s.dueBurst p = some (r, t))
include hdue

/-- The run of the stream entry that stands grows by the burst; where it was empty it begins at the read's position. -/
theorem State.judgeBurst_joins {before after : List OutEntry} {x : StreamEntry}
    (hout : (s.port p).outbound = before ++ .stream x :: after) (hopen : x.isOpen = true)
    (hone : ∀ e ∈ before ++ after, e.isOpenStream = false) :
    s.judgeBurst p = s.setPort p { s.port p with
      read := some { r with position := r.position + mergedOwed r t }
      outbound := before ++ .stream { x with
        first := if x.count = 0 then r.position else x.first, count := x.count + mergedOwed r t } :: after } := by
  obtain ⟨hbefore, hafter⟩ := List.forall_mem_append.1 hone
  simp [State.judgeBurst, hdue, PortState.streamStands_of_split hout hopen, PortState.modStream, hout,
    OutEntry.map_modOpen_of_split _ hopen hbefore hafter]

variable (hgone : (s.port p).streamStands = false)
include hgone

theorem State.judgeBurst_takesEntry (hcan : (s.port p).canTake = true) :
    s.judgeBurst p = s.setPort p (PortState.push
      { s.port p with read := some { r with position := r.position + mergedOwed r t } }
      (.stream { reply := none, tile := r.tile, tag := r.tag, first := r.position, count := mergedOwed r t
                 close := none, isOpen := true })) := by
  simp [State.judgeBurst, hdue, hgone, hcan]

theorem State.judgeBurst_waits (hcan : (s.port p).canTake = false) : s.judgeBurst p = s := by
  simp [State.judgeBurst, hdue, hgone, hcan]

end Burst

/-- Settles O53, by whether the burst is due, whether the open read's stream entry stands, and whether the list has a free
entry of an UP link. -/
theorem burstTakesMergedLines : Obligations.BurstTakesMergedLines := by
  intro s p r t hread htile U R due
  have hdue : burstDue r t = true ↔ due := burstDue_iff r t
  have hburst := State.dueBurst_eq hread htile
  refine ⟨fun hno => ?notDue, fun hyes => ?due⟩
  case notDue => exact State.judgeBurst_notDue (hburst.trans (if_neg (mt hdue.1 hno)))
  case due =>
    replace hburst := hburst.trans (if_pos (hdue.2 hyes))
    refine ⟨fun before x after hout hopen hone => ?joins, fun hgone => ?gone⟩
    case joins => exact State.judgeBurst_joins hburst hout hopen hone
    case gone =>
      replace hgone := (PortState.streamStands_eq_false_iff _).2 hgone
      refine ⟨fun hup hfree => ?takesEntry, fun hfull => ?waits⟩
      case takesEntry =>
        refine ⟨_, State.judgeBurst_takesEntry hburst hgone ((PortState.canTake_iff _).2 ⟨hup, hfree⟩), ?_⟩
        simp [hup, U, mergedOwed]
      case waits => exact State.judgeBurst_waits hburst hgone ((PortState.canTake_false_iff _).2 hfull)

end Sys2Proof.Machine
end

section
/-! FETCH_TILE of chapter 08: the rows of R173 in the order of its table, and the read of R174. OPEN_DRAIN (R184) begins with
the same rows, and its read is opened the same way, so what the two share stands first. -/

namespace Sys2Proof.Machine

/-! ### The pending fetch table, searched by tile and port -/

section Entries

variable {s : State} {p : Port} {id : TileId}

theorem State.ownEntry_eq_none_iff : s.ownEntry p id = none ↔ ∀ x ∈ s.entries, x.port = p → x.tile ≠ id := by
  simp [State.ownEntry]

theorem State.otherEntry_eq_some_iff {e : PendingEntry} :
    s.otherEntry p id = some e ↔ (e.port ≠ p ∧ e.tile = id) ∧
      ∃ before after, s.entries = before ++ e :: after ∧ ∀ x ∈ before, x.port ≠ p → x.tile ≠ id := by
  simp [State.otherEntry, List.find?_eq_some_iff_append, imp_iff_not_or]

theorem State.otherEntry_eq_none_iff : s.otherEntry p id = none ↔ ∀ x ∈ s.entries, x.port ≠ p → x.tile ≠ id := by
  simp [State.otherEntry]

theorem State.otherHolding_eq_some_iff {e : PendingEntry} :
    s.otherHolding p id = some e ↔ (e.port ≠ p ∧ e.tile = id ∧ e.state ≠ .waiting) ∧
      ∃ before after, s.entries = before ++ e :: after ∧
        ∀ x ∈ before, x.port ≠ p → x.tile = id → x.state = .waiting := by
  simp [State.otherHolding, List.find?_eq_some_iff_append, imp_iff_not_or, and_assoc, or_assoc]

theorem State.otherHolding_eq_none_iff :
    s.otherHolding p id = none ↔ ∀ x ∈ s.entries, x.port ≠ p → x.tile = id → x.state = .waiting := by
  simp [State.otherHolding]

/-- Where the port has no entry for the tile, an entry for it is another port's. -/
theorem State.port_ne_of_noOwn (hown : s.ownEntry p id = none) {e : PendingEntry} (he : e ∈ s.entries)
    (hid : e.tile = id) : e.port ≠ p :=
  fun hport => State.ownEntry_eq_none_iff.1 hown e he hport hid

@[simp] theorem State.otherHolding_taken (s : State) (p q : Port) (rest : List Message) (id : TileId) :
    (s.taken p rest).otherHolding q id = s.otherHolding q id := by simp [State.otherHolding]

theorem State.removeEntry_taken (s : State) (p : Port) (rest : List Message) (id : TileId) :
    (s.taken p rest).removeEntry p id = { s.taken p rest with
      entries := s.entries.filter (fun e => !(decide (e.port = p) && decide (e.tile = id))) } := by
  simp [State.removeEntry]

end Entries

/-! ### The rows that FETCH_TILE and OPEN_DRAIN share (08 R167, R173, R184) -/

/-- The first rows of R173 and R184: a link that is DOWN (09 R206), no tile and no own entry, a slot outside the window,
an own entry or a tile that is FAILED. `rows` is what the command's other rows do with the tile. -/
def State.judgeAccess (s : State) (p : Port) (m : Message) (id : TileId) (rows : TileEntry → State) : State :=
  if (s.port p).link = .down then s
  else
    match judgedSlot (s.tile? id) (s.ownEntry p id) with
    | none => s.reply p m .unknownTile
    | some slot =>
      if (s.port p).covers slot = false then s.reply p m .window
      else if ownState (s.ownEntry p id) = some .failed then (s.removeEntry p id).reply p m .failed
      else
        match s.tile? id with
        | none => s.reply p m .unknownTile
        | some t => if t.state = .failed then (s.removeEntry p id).reply p m .failed else rows t

/-- Rows 4 to 15 of R173, by the state of the tile. -/
def State.fetchRows (s : State) (p : Port) (m : Message) (id : TileId) (consume : Bool) (t : TileEntry) : State :=
  if t.state = .complete then s.fetchComplete p m t (ownState (s.ownEntry p id)) consume
  else s.fetchEarly p m t (ownState (s.ownEntry p id))

theorem State.fetchTile_eq (s : State) (p : Port) (m : Message) (id : TileId) (consume : Bool) :
    s.fetchTile p m id consume = s.judgeAccess p m id (s.fetchRows p m id consume) := by
  unfold State.fetchTile State.judgeAccess State.fetchRows
  cases s.tile? id with
  | none => rfl
  | some t => cases hst : t.state <;> simp [hst] <;> rfl

section Access

variable {s : State} {p : Port} (m : Message) {rest : List Message} {id : TileId} {t : TileEntry} (rows : TileEntry → State)

theorem State.judgeAccess_down (hdown : (s.port p).link = .down) :
    (s.taken p rest).judgeAccess p m id rows = s.taken p rest := by
  simp [State.judgeAccess, hdown]

variable (hup : (s.port p).link = .up)
include hup

theorem State.judgeAccess_unknown (hnone : s.tile? id = none) (hown : s.ownEntry p id = none) :
    (s.taken p rest).judgeAccess p m id rows = (s.taken p rest).reply p m .unknownTile := by
  simp [State.judgeAccess, judgedSlot, hup, hnone, hown]

section Gone

variable (hnone : s.tile? id = none) {e : PendingEntry} (hown : s.ownEntry p id = some e)
include hnone hown

/-- Without a tile the own entry's slot is judged against the window. -/
theorem State.judgeAccess_goneOutside (hout : ¬ ((s.port p).windowBase ≤ e.slot ∧ e.slot ≤ (s.port p).windowLimit)) :
    (s.taken p rest).judgeAccess p m id rows = (s.taken p rest).reply p m .window := by
  obtain hout | hout := not_and_or.1 hout <;>
    simp [State.judgeAccess, judgedSlot, PortState.covers, hout, hup, hnone, hown]

theorem State.judgeAccess_goneFailed (hcov : (s.port p).windowBase ≤ e.slot ∧ e.slot ≤ (s.port p).windowLimit)
    (hst : e.state = .failed) :
    (s.taken p rest).judgeAccess p m id rows = ((s.taken p rest).removeEntry p id).reply p m .failed := by
  simp [State.judgeAccess, judgedSlot, ownState, PortState.covers, hcov, hup, hnone, hown, hst]

end Gone

variable (htile : s.tile? id = some t)
include htile

theorem State.judgeAccess_outside (hout : ¬ ((s.port p).windowBase ≤ t.slot ∧ t.slot ≤ (s.port p).windowLimit)) :
    (s.taken p rest).judgeAccess p m id rows = (s.taken p rest).reply p m .window := by
  obtain hout | hout := not_and_or.1 hout <;> simp [State.judgeAccess, judgedSlot, PortState.covers, hout, hup, htile]

variable (hcov : (s.port p).windowBase ≤ t.slot ∧ t.slot ≤ (s.port p).windowLimit)
include hcov

theorem State.judgeAccess_failed (hfailed : (∃ e, s.ownEntry p id = some e ∧ e.state = .failed) ∨ t.state = .failed) :
    (s.taken p rest).judgeAccess p m id rows = ((s.taken p rest).removeEntry p id).reply p m .failed := by
  obtain ⟨e, hown, hst⟩ | hst := hfailed
  · simp [State.judgeAccess, judgedSlot, ownState, PortState.covers, hcov, hup, htile, hown, hst]
  · simp [State.judgeAccess, judgedSlot, PortState.covers, hcov, hup, htile, hst]

theorem State.judgeAccess_rows (hown : ownState (s.ownEntry p id) ≠ some .failed) (hst : t.state ≠ .failed) :
    (s.taken p rest).judgeAccess p m id rows = rows t := by
  simp [State.judgeAccess, judgedSlot, PortState.covers, hcov, hup, htile, hown, hst]

end Access

/-! ### The read that is opened (08 R170, R174, R185) -/

/-- A read opened on a state whose ports and directory are those after the message was taken. -/
theorem State.joinReader_openRead_opens {s v : State} {p : Port} {rest : List Message}
    (hports : v.ports = (s.taken p rest).ports) (hdirectory : v.directory = s.directory) (id : TileId) (kind : ReadKind)
    (consume : Bool) (r : Read) (reply : OutMessage) (first count : Nat) :
    let w := (v.joinReader id p kind consume).openRead p r reply first count
    w = { v with
      directory := s.directory.map (fun x => if x.id = id then { x with reader := some (p, kind), consume := consume } else x)
      ports := w.ports } ∧ OtherPortsKept p s w ∧ (w.port p).inbound = rest ∧ (w.port p).read = some r ∧
    (w.port p).outbound = (s.port p).outbound ++ [.stream
      { reply := some reply, tile := r.tile, tag := r.tag, first := first, count := count, close := none
        isOpen := true }] := by
  have hport : ∀ q, (v.joinReader id p kind consume).port q = (s.taken p rest).port q := fun q =>
    State.port_congr hports q
  refine ⟨?frame, fun q hq => ?others, ?_⟩
  case frame => rw [← hdirectory]; cases p <;> rfl
  case others => rw [State.openRead, State.port_setPort_of_ne _ _ hq, hport, State.port_taken_of_ne hq]
  · simp [State.openRead, hport]

/-! ### The rows of R173 for a tile that may be read -/

section FetchComplete

variable {s : State} {p : Port} (m : Message) {t : TileEntry} (consume : Bool)

theorem State.fetchComplete_ready (hread : (s.port p).read = none) :
    s.fetchComplete p m t (some .ready) consume = (s.removeEntry p t.id).streamFetch p m t consume := by
  simp [State.fetchComplete, hread]

theorem State.fetchComplete_readyBusy (hread : (s.port p).read ≠ none) :
    s.fetchComplete p m t (some .ready) consume = s.busyTile p m t (some p) := by
  simp [State.fetchComplete, Option.isSome_iff_ne_none, hread]

theorem State.fetchComplete_waiting :
    s.fetchComplete p m t (some .waiting) consume = s.reply p m .pending (.tileState t.state) := by
  simp [State.fetchComplete]

theorem State.fetchComplete_read {q : Port} {kind : ReadKind} (hreader : t.reader = some (q, kind)) :
    s.fetchComplete p m t none consume = s.busyTile p m t (some q) := by
  simp [State.fetchComplete, hreader]

variable (hreader : t.reader = none)
include hreader

theorem State.fetchComplete_held {e : PendingEntry} (hheld : s.otherHolding p t.id = some e) :
    s.fetchComplete p m t none consume = s.busyTile p m t (some e.port) := by
  simp [State.fetchComplete, hreader, hheld]

variable (hfree : s.otherHolding p t.id = none)
include hfree

theorem State.fetchComplete_busy (hread : (s.port p).read ≠ none) :
    s.fetchComplete p m t none consume = s.busyTile p m t (some p) := by
  simp [State.fetchComplete, hreader, hfree, Option.isSome_iff_ne_none, hread]

theorem State.fetchComplete_free (hread : (s.port p).read = none) :
    s.fetchComplete p m t none consume = s.streamFetch p m t consume := by
  simp [State.fetchComplete, hreader, hfree, hread]

end FetchComplete

section FetchEarly

variable {s : State} {p : Port} (m : Message) {t : TileEntry}

theorem State.fetchEarly_waiting : s.fetchEarly p m t (some .waiting) = s.reply p m .pending (.tileState t.state) := by
  simp [State.fetchEarly]

theorem State.fetchEarly_reading {kind : ReadKind} (hreader : t.reader = some (p, kind)) :
    s.fetchEarly p m t none = s.busyTile p m t (some p) := by
  simp [State.fetchEarly, hreader]

variable (hreader : ∀ kind, t.reader ≠ some (p, kind))
include hreader

theorem State.fetchEarly_held {e : PendingEntry} (hheld : s.otherEntry p t.id = some e) :
    s.fetchEarly p m t none = s.busyTile p m t (some e.port) := by
  simp [State.fetchEarly, hreader, hheld]

variable (hfree : s.otherEntry p t.id = none)
include hfree

/-- The pending fetch table holds eight entries (08 R173). -/
theorem State.fetchEarly_full (hfull : 8 ≤ s.entries.length) :
    s.fetchEarly p m t none = s.busyTile p m t none := by
  simp [State.fetchEarly, hreader, hfree, hfull]

theorem State.fetchEarly_enters (hroom : s.entries.length < 8) :
    s.fetchEarly p m t none = (s.makeEntry p t).reply p m .pending (.tileState t.state) := by
  simp [State.fetchEarly, hreader, hfree, hroom]

end FetchEarly

/-! ### The command and the obligation -/

section Command

variable {s : State} {p : Port} {m : Message} {rest : List Message} {id : TileId} {consume : Bool}
  (hasks : Asks s p m rest (.fetchTile id consume))
include hasks

theorem exec_fetchTile_of_asks :
    exec (.fetchTile p) s = .next ((s.taken p rest).judgeAccess p m id ((s.taken p rest).fetchRows p m id consume)) :=
  congrArg Host.Outcome.next ((State.taking_of_asks hasks _).trans (State.fetchTile_eq _ p m id consume))

variable {t : TileEntry} {own : Option EntryState} (hup : (s.port p).link = .up) (htile : s.tile? id = some t)
  (hcov : (s.port p).windowBase ≤ t.slot ∧ t.slot ≤ (s.port p).windowLimit)
  (hown : ownState (s.ownEntry p id) = own) (hnotFailed : own ≠ some .failed)
include hup htile hcov hown hnotFailed

theorem exec_fetchTile_complete (hst : t.state = .complete) :
    exec (.fetchTile p) s = .next ((s.taken p rest).fetchComplete p m t own consume) := by
  subst hown
  rw [exec_fetchTile_of_asks hasks, State.judgeAccess_rows m _ hup htile hcov hnotFailed (by simp [hst]), State.fetchRows,
    if_pos hst, State.ownEntry_taken]

theorem exec_fetchTile_early (hst : t.state = .capturing ∨ t.state = .mergeWait ∨ t.state = .merging) :
    exec (.fetchTile p) s = .next ((s.taken p rest).fetchEarly p m t own) := by
  subst hown
  have hne : t.state ≠ .failed ∧ t.state ≠ .complete := by
    obtain h | h | h := hst <;> simp [h]
  rw [exec_fetchTile_of_asks hasks, State.judgeAccess_rows m _ hup htile hcov hnotFailed hne.1, State.fetchRows,
    if_neg hne.2, State.ownEntry_taken]

end Command

/-- Settles O51: the rows that OPEN_DRAIN has too, then the rows of a COMPLETE tile by the own entry, the reader, the other
ports' entries and the port's read, then those of a tile not complete yet. -/
theorem fetchTileByRows : Obligations.FetchTileByRows := by
  intro s p m rest id consume hasks u own covered unentered streams
  have hexec := exec_fetchTile_of_asks hasks
  have hremove : u.removeEntry p id = unentered := State.removeEntry_taken s p rest id
  have hread : (u.port p).read = (s.port p).read := by simp [u]
  have hentries : u.entries = s.entries := by simp [u]
  have hdirectory : u.directory = s.directory := by simp [u]
  have hstate : ∀ e st, own = some e → e.state = st → ownState own = some st := fun e st he h => by simp [ownState, he, h]
  have hother : ∀ before e after, own = none → s.entries = before ++ e :: after → e.tile = id → e.port ≠ p :=
    fun before e after hnone hsplit => State.port_ne_of_noOwn hnone (by simp [hsplit])
  have hstreams : ∀ (v : State) (t : TileEntry), v.ports = u.ports → v.directory = u.directory → t.id = id →
      exec (.fetchTile p) s = .next (v.streamFetch p m t consume) → streams v t := by
    intro v t hports hdir hid hstream
    refine ⟨_, hstream, ?_⟩
    simp only [State.streamFetch, fetchRead, openingReply, hid]
    exact State.joinReader_openRead_opens hports (hdir.trans hdirectory) id .fetch consume _ _ _ _
  refine ⟨fun hdown => ?down, fun hup => ⟨fun hnone hnoOwn => ?unknown, fun e hnone he =>
    ⟨fun hslot => ?goneOutside, fun hslot hst => ?goneFailed⟩, fun t ht => ⟨fun hslot => ?outside, fun hslot =>
      ⟨fun hfailed => ?failed, fun hst => ?complete, fun hst => ?early⟩⟩⟩⟩
  case down => rw [hexec, State.judgeAccess_down m _ hdown]
  case unknown => rw [hexec, State.judgeAccess_unknown m _ hup hnone hnoOwn]
  case goneOutside => rw [hexec, State.judgeAccess_goneOutside m _ hup hnone he hslot]
  case goneFailed => rw [hexec, State.judgeAccess_goneFailed m _ hup hnone he hslot hst, hremove]
  case outside => rw [hexec, State.judgeAccess_outside m _ hup ht hslot]
  case failed => rw [hexec, State.judgeAccess_failed m _ hup ht hslot hfailed, hremove]
  case complete =>
    have hid : t.id = id := State.tile_id ht
    have hrows : ∀ st, ownState own = st → st ≠ some .failed →
        exec (.fetchTile p) s = .next (u.fetchComplete p m t st consume) :=
      fun _ hown hne => exec_fetchTile_complete hasks hup ht hslot hown hne hst
    refine ⟨fun e he hready hidle => ?ready, fun e he hready hbusy => ?readyBusy, fun e he hwaiting => ?waiting,
      fun hnoOwn => ⟨fun q kind hreader => ?read, fun hreader =>
        ⟨fun before e after hsplit htile hheld hbefore => ?held, fun hwaiting => ⟨fun hbusy => ?busy, fun hidle => ?free⟩⟩⟩⟩
    case ready =>
      refine hstreams unentered t rfl rfl hid ?_
      rw [hrows _ (hstate e _ he hready) (by simp), State.fetchComplete_ready m consume (hread.trans hidle), hid, hremove]
    case readyBusy =>
      rw [hrows _ (hstate e _ he hready) (by simp), State.fetchComplete_readyBusy m consume (by rwa [hread]),
        State.busyTile, hst]
    case waiting => rw [hrows _ (hstate e _ he hwaiting) (by simp), State.fetchComplete_waiting, hst]
    all_goals replace hrows := hrows none (by rw [hnoOwn]; rfl) (by simp)
    case read => rw [hrows, State.fetchComplete_read m consume hreader, State.busyTile, hst]
    case held =>
      have hfirst : u.otherHolding p t.id = some e := State.otherHolding_eq_some_iff.2
        ⟨⟨hother _ e _ hnoOwn hsplit htile, htile.trans hid.symm, hheld⟩, before, after, hentries.trans hsplit,
          fun x hx _ => hid ▸ hbefore x hx⟩
      rw [hrows, State.fetchComplete_held m consume hreader hfirst, State.busyTile, hst]
    all_goals
      have hfree : u.otherHolding p t.id = none :=
        State.otherHolding_eq_none_iff.2 (by rw [hentries, hid]; exact fun x hx _ => hwaiting x hx)
    case busy => rw [hrows, State.fetchComplete_busy m consume hreader hfree (by rwa [hread]), State.busyTile, hst]
    case free =>
      rw [State.fetchComplete_free m consume hreader hfree (hread.trans hidle)] at hrows
      exact hstreams u t rfl rfl hid hrows
  case early =>
    have hid : t.id = id := State.tile_id ht
    have hrows : ∀ st, ownState own = st → st ≠ some .failed → exec (.fetchTile p) s = .next (u.fetchEarly p m t st) :=
      fun _ hown hne => exec_fetchTile_early hasks hup ht hslot hown hne hst
    refine ⟨fun e he hwaiting => ?waiting, fun hnoOwn => ⟨fun kind hreader => ?reading, fun hreader =>
      ⟨fun before e after hsplit htile hbefore => ?held, fun hnone => ⟨fun hfull => ?full, fun hroom => ?enters⟩⟩⟩⟩
    case waiting => rw [hrows _ (hstate e _ he hwaiting) (by simp), State.fetchEarly_waiting]
    all_goals replace hrows := hrows none (by rw [hnoOwn]; rfl) (by simp)
    case reading => rw [hrows, State.fetchEarly_reading m hreader, State.busyTile]
    case held =>
      have hfirst : u.otherEntry p t.id = some e := State.otherEntry_eq_some_iff.2
        ⟨⟨hother _ e _ hnoOwn hsplit htile, htile.trans hid.symm⟩, before, after, hentries.trans hsplit,
          fun x hx _ => hid ▸ hbefore x hx⟩
      rw [hrows, State.fetchEarly_held m hreader hfirst, State.busyTile]
    all_goals
      have hfree : u.otherEntry p t.id = none :=
        State.otherEntry_eq_none_iff.2 (by rw [hentries, hid]; exact fun x hx _ => hnone x hx)
    case full => rw [hrows, State.fetchEarly_full m hreader hfree (by rwa [hentries]), State.busyTile]
    case enters =>
      rw [hrows, State.fetchEarly_enters m hreader hfree (by rwa [hentries]), State.makeEntry, hentries, hid]

end Sys2Proof.Machine
end

section
/-! OPEN_DRAIN of chapter 08: the rows of R184 in the order of its table, its threshold and count in force, and the read of
R185. The rows it shares with FETCH_TILE, and what the opening of a read changes, stand with FETCH_TILE. -/

namespace Sys2Proof.Machine

/-! ### The threshold and the count in force (08 R184) -/

theorem clampThreshold_eq (t : Nat) : clampThreshold t = if t < 1 then 1 else if 256 < t then 256 else t := by
  unfold clampThreshold
  split_ifs <;> omega

theorem clampCount_eq (count start height : Nat) :
    clampCount count start height = if count = 0 then 0 else if height < start + count then height - start else count := by
  by_cases hcount : count = 0 <;> simp [clampCount, hcount]

/-- A count that is not 0 stays so, because the start line is below the height. -/
theorem clampCount_eq_zero_iff {count start height : Nat} (hstart : start < height) :
    clampCount count start height = 0 ↔ count = 0 := by
  rw [clampCount_eq]
  split_ifs <;> omega

/-! ### The rows of R184 for a tile that may be read -/

/-- Rows 4 to 8 of R184. -/
def State.drainRows (s : State) (p : Port) (m : Message) (id : TileId) (threshold count start : Nat) (consume : Bool)
    (t : TileEntry) : State :=
  if t.height ≤ start then s.badField p m 8
  else
    match t.reader, s.otherHolding p id with
    | some (holder, _), _ => s.busyTile p m t (some holder)
    | none, some e => s.busyTile p m t (some e.port)
    | none, none =>
      if (s.port p).read.isSome then s.busyTile p m t (some p)
      else s.acceptDrain p m t (clampThreshold threshold) (clampCount count start t.height) start consume

theorem State.openDrain_eq (s : State) (p : Port) (m : Message) (id : TileId) (threshold count start : Nat)
    (consume : Bool) : s.openDrain p m id threshold count start consume =
      s.judgeAccess p m id (s.drainRows p m id threshold count start consume) := rfl

section Rows

variable {s : State} {p : Port} (m : Message) {id : TileId} (threshold count : Nat) {start : Nat} (consume : Bool)
  {t : TileEntry}

theorem State.drainRows_badStart (hbad : t.height ≤ start) :
    s.drainRows p m id threshold count start consume t = s.badField p m 8 := by
  simp [State.drainRows, hbad]

variable (hstart : start < t.height)
include hstart

theorem State.drainRows_read {q : Port} {kind : ReadKind} (hreader : t.reader = some (q, kind)) :
    s.drainRows p m id threshold count start consume t = s.busyTile p m t (some q) := by
  simp [State.drainRows, Nat.not_le.2 hstart, hreader]

variable (hreader : t.reader = none)
include hreader

theorem State.drainRows_held {e : PendingEntry} (hheld : s.otherHolding p id = some e) :
    s.drainRows p m id threshold count start consume t = s.busyTile p m t (some e.port) := by
  simp [State.drainRows, Nat.not_le.2 hstart, hreader, hheld]

variable (hfree : s.otherHolding p id = none)
include hfree

theorem State.drainRows_busy (hread : (s.port p).read ≠ none) :
    s.drainRows p m id threshold count start consume t = s.busyTile p m t (some p) := by
  simp [State.drainRows, Nat.not_le.2 hstart, hreader, hfree, Option.isSome_iff_ne_none, hread]

theorem State.drainRows_accepted (hread : (s.port p).read = none) :
    s.drainRows p m id threshold count start consume t =
      s.acceptDrain p m t (clampThreshold threshold) (clampCount count start t.height) start consume := by
  simp [State.drainRows, Nat.not_le.2 hstart, hreader, hfree, hread]

end Rows

/-! ### The command and the obligation -/

theorem exec_openDrain_of_asks {s : State} {p : Port} {m : Message} {rest : List Message} {id : TileId}
    {threshold count start : Nat} {consume : Bool} (hasks : Asks s p m rest (.openDrain id threshold count start consume)) :
    exec (.openDrain p) s = .next
      ((s.taken p rest).judgeAccess p m id ((s.taken p rest).drainRows p m id threshold count start consume)) :=
  congrArg Host.Outcome.next ((State.taking_of_asks hasks _).trans (State.openDrain_eq _ p m id threshold count start consume))

/-- Settles O52: the rows that FETCH_TILE has too, then the start line, the reader, the other ports' entries and the port's
read; the read accepted is the one of R185 under the threshold and count in force. -/
theorem openDrainByRows : Obligations.OpenDrainByRows := by
  intro s p m rest id threshold count start consume hasks u own covered unentered
  have hexec := exec_openDrain_of_asks hasks
  have hremove : u.removeEntry p id = unentered := State.removeEntry_taken s p rest id
  have hread : (u.port p).read = (s.port p).read := by simp [u]
  have hentries : u.entries = s.entries := by simp [u]
  have hdirectory : u.directory = s.directory := by simp [u]
  refine ⟨fun hdown => ?down, fun hup => ⟨fun hnone hnoOwn => ?unknown, fun e hnone he =>
    ⟨fun hslot => ?goneOutside, fun hslot hst => ?goneFailed⟩, fun t ht => ⟨fun hslot => ?outside, fun hslot =>
      ⟨fun hfailed => ?failed, fun hown hst => ⟨fun hbad => ?badStart, fun hstart =>
        ⟨fun q kind hreader => ?read, fun hreader =>
          ⟨fun before e after hsplit hport htile hheld hbefore => ?held, fun hwaiting =>
            ⟨fun hbusy => ?busy, fun hidle => ?accepted⟩⟩⟩⟩⟩⟩⟩⟩
  case down => rw [hexec, State.judgeAccess_down m _ hdown]
  case unknown => rw [hexec, State.judgeAccess_unknown m _ hup hnone hnoOwn]
  case goneOutside => rw [hexec, State.judgeAccess_goneOutside m _ hup hnone he hslot]
  case goneFailed => rw [hexec, State.judgeAccess_goneFailed m _ hup hnone he hslot hst, hremove]
  case outside => rw [hexec, State.judgeAccess_outside m _ hup ht hslot]
  case failed => rw [hexec, State.judgeAccess_failed m _ hup ht hslot hfailed, hremove]
  all_goals
    have hrows : exec (.openDrain p) s = .next (u.drainRows p m id threshold count start consume t) :=
      hexec.trans (congrArg _ (State.judgeAccess_rows m _ hup ht hslot (by simpa [ownState] using hown) hst))
  case badStart => rw [hrows, State.drainRows_badStart m _ _ _ hbad, State.badField]
  case read => rw [hrows, State.drainRows_read m _ _ _ hstart hreader, State.busyTile]
  case held =>
    have hfirst : u.otherHolding p id = some e := State.otherHolding_eq_some_iff.2
      ⟨⟨hport, htile, hheld⟩, before, after, hentries.trans hsplit, hbefore⟩
    rw [hrows, State.drainRows_held m _ _ _ hstart hreader hfirst, State.busyTile]
  all_goals
    have hfree : u.otherHolding p id = none := State.otherHolding_eq_none_iff.2 (by rwa [hentries])
  case busy => rw [hrows, State.drainRows_busy m _ _ _ hstart hreader hfree (by rwa [hread]), State.busyTile]
  case accepted =>
    intro T K
    have hT : clampThreshold threshold = T := clampThreshold_eq threshold
    have hK : clampCount count start t.height = K := clampCount_eq count start t.height
    have hzero : K = 0 ↔ count = 0 := hK ▸ clampCount_eq_zero_iff hstart
    rw [State.drainRows_accepted m _ _ _ hstart hreader hfree (hread.trans hidle), State.acceptDrain, State.tile_id ht,
      hremove, hT, hK] at hrows
    refine ⟨_, hrows, ?_⟩
    simp only [drainRead, openingReply, State.tile_id ht, hzero]
    exact State.joinReader_openRead_opens (v := unentered) rfl hdirectory id .drain consume _ _ _ _

end Sys2Proof.Machine
end

section
/-! What one command can do, said once: `Happens s c t` lists the outcomes of every command, and `exec_happens` says that
there are no others. The statements about every step rest on this list instead of on the commands' own texts. -/

namespace Sys2Proof.Machine

/-! ### The requests and posts -/

/-- The command that takes a request or post from the queue of port `p` (09 R199). -/
def Request.command (p : Port) : Request → Instr
  | .plateEnter _ => .plateEnter p
  | .readPlate _ => .readPlate p
  | .raiseBudget _ _ => .raiseBudget p
  | .retirePlate _ => .retirePlate p
  | .keep _ => .keep p
  | .unkeep _ => .unkeep p
  | .releasePlate _ => .releasePlate p
  | .register _ => .register p
  | .submitProgram _ => .submitProgram p
  | .cancelProgram _ => .cancelProgram p
  | .calibrate _ _ _ => .calibrate p
  | .discardTile _ => .discardTile p
  | .fetchTile _ _ => .fetchTile p
  | .openDrain _ _ _ _ _ => .openDrain p
  | .stopRead => .stopRead p
  | .setWindow _ _ => .setWindow p
  | .readSettings => .readSettings p
  | .writeSettings _ _ _ _ _ _ _ => .writeSettings p
  | .setPreview _ => .setPreview p
  | .queryStatus => .queryStatus p
  | .platePlaced _ => .platePlaced p
  | .plateRemoved _ => .plateRemoved p
  | .annotate _ _ => .annotate p
  | .portReset => .portReset p

/-- The effect of a request or post on the state that is left once its message `m` is taken. -/
def State.serve (s : State) (p : Port) (m : Message) : Request → State
  | .plateEnter f => s.plateEnter p m f
  | .readPlate i => s.readPlate p m i
  | .raiseBudget i n => s.raiseBudget p m i n
  | .retirePlate i => s.retirePlate p m i
  | .keep i => s.keep p m i
  | .unkeep i => s.unkeep p m i
  | .releasePlate i => s.releasePlate p m i
  | .register i => s.register p m i
  | .submitProgram f => s.submitProgram p m f
  | .cancelProgram tag => s.cancelProgram p m tag
  | .calibrate t l w => s.calibrate p m t l w
  | .discardTile id => s.discardTile p m id
  | .fetchTile id consume => s.fetchTile p m id consume
  | .openDrain id t k l consume => s.openDrain p m id t k l consume
  | .stopRead => s.stopRead p m
  | .setWindow base limit => s.setWindow p m base limit
  | .readSettings => s.reply p m .ok (.settings s.settings)
  | .writeSettings d r a e u f o => s.writeSettings p m (clampSettings d r a e u f o)
  | .setPreview on => s.setPreview p m on
  | .queryStatus => s.reply p m .ok (.status (s.statusReport p))
  | .platePlaced i => s.platePlaced p m i
  | .plateRemoved i => s.plateRemoved p m i
  | .annotate i note => s.annotate p m i note
  | .portReset => s.portReset p

/-- A request or post that is asked is served on the state that is left (09 R199). -/
theorem exec_command_of_asks {s : State} {p : Port} {m : Message} {rest : List Message} {r : Request}
    (h : Asks s p m rest r) : exec (r.command p) s = .next ((s.taken p rest).serve p m r) := by
  cases r <;> exact congrArg Host.Outcome.next (State.taking_of_asks h _)

/-- Taking fails, or the message at the head of the queue is a request or post. -/
theorem State.taking_cases (s : State) (p : Port) (act : Message → Request → State → Option State) :
    s.taking p act = s.fresh ∨ ∃ m rest r, Asks s p m rest r ∧ act m r (s.taken p rest) = some (s.taking p act) := by
  by_cases hw : ∃ m rest, Waits s p m rest
  · obtain ⟨m, rest, hw⟩ := hw
    cases hr : readMessage m with
    | request r =>
      rw [State.taking_of_asks ⟨hw, hr⟩]
      cases ha : act m r (s.taken p rest) with
      | none => exact .inl rfl
      | some s2 => exact .inr ⟨m, rest, r, ⟨hw, hr⟩, ha⟩
    | malformedRequest => exact .inl (by simp [State.taking, State.take_of_waits hw, hr])
    | malformedPost => exact .inl (by simp [State.taking, State.take_of_waits hw, hr])
    | discarded => exact .inl (by simp [State.taking, State.take_of_waits hw, hr])
  · refine .inl ?_
    have hnone : s.fresh.take p = none := by
      unfold State.take
      split
      · split
        · rename_i m rest hq
          exact absurd ⟨m, rest, by simpa using ‹s.fresh.port p |>.mayTake›, by simpa using hq⟩ hw
        · rfl
      · rfl
    rw [State.taking, hnone]

/-! ### The outcomes of a command -/

/-- The lamp phase of the work `c` ends (04 R89). -/
def State.lampEnds (s : State) (c : ExposureContext) : State :=
  { s.stopTake with unit := { s.stopTake.unit with
      state := .readout, context := some { c with nextLine := 0 }, timer := .line 100 } }

/-- What a command can lead to: `t` is a state after `c` taken in `s`. -/
inductive Happens (s : State) : Instr → State → Prop
  | nothing (c : Instr) : Happens s c s.fresh
  | served {p : Port} {m : Message} {rest : List Message} {r : Request} (h : Asks s p m rest r) :
    Happens s (r.command p) ((s.taken p rest).serve p m r)
  | discarded {p : Port} {m : Message} {rest : List Message} (h : Waits s p m rest) :
    Happens s (.malformed p) (s.taken p rest)
  | refused {p : Port} {m : Message} {rest : List Message} (h : Waits s p m rest) (e : OutEntry) :
    Happens s (.malformed p) ((s.taken p rest).place p e)
  | reset : Happens s .reset { State.reset with pending := s.pending }
  | lock {p : Port} (h : (s.port p).link = .down) :
    Happens s (.lock p) (s.fresh.serveFreed (s.fresh.setPort p (s.port p).comeUp) p)
  | lossOfLock {p : Port} (h : (s.port p).link = .up) :
    Happens s (.lossOfLock p) (((s.fresh.setPort p (s.port p).goDown).dropEntries p).endReadSilently p)
  | arrival {p : Port} (f : Frame) :
    Happens s (.messageArrival p f) (s.fresh.setPort p ((s.port p).accept (frameMessage f)))
  | accepted {p : Port} {m : OutMessage} {q : PortState} (h : (s.port p).acceptMessage = some (m, q)) :
    Happens s (.messageAccepted p) (s.fresh.serveFreed ((s.fresh.setPort p q).emit (.frame p (frameOf m))) p)
  | delivered {p : Port} {e : StreamEntry} {r : Read} {t : TileEntry} (he : (s.port p).lineSending = some e)
    (hr : (s.port p).read = some r) (ht : s.tile? r.tile = some t) :
    Happens s (.lineDelivered p) (s.fresh.serveFreed (s.fresh.lineDelivered p e r t) p)
  | claim {p : Port} {c : Instr} {sel : Claim → Bool} (h : (c, sel) ∈ [(Instr.pendingNoticeIssue p, Claim.isNotice),
      (.heldProgramDone p, Claim.isDone), (.failedClosePlace p, Claim.isFailedClose), (.waitingBurst p, Claim.isBurst)]) :
    Happens s c (s.fresh.serveAlone p sel)
  | grant : Happens s .allocationGrant s.fresh.grantWaiting
  | handover : Happens s .workHandover s.fresh.offerUnit
  | moved {q : BitVec 8} {c : ExposureContext} (h : s.answered q = some c) :
    Happens s (.doneAnswer q) (s.fresh.settle (s.fresh.withTimer .stopped).beginExposure)
  | timed {q : BitVec 8} {c : ExposureContext} {i : Instr} {t : UnitTimer} (h : s.answered q = some c)
    (hi : (i, t) ∈ [(Instr.movingAnswer q, UnitTimer.answer 50), (.busyAnswer q, .busyWait 10)]) :
    Happens s i (s.fresh.withTimer t)
  | moveFails {c : ExposureContext} {i : Instr} (hu : s.unit.state = .moving) (hc : s.unit.context = some c)
    (hi : i = .answerTimerExpiry ∨ ∃ q, i = .busyAnswer q ∨ i = .faultAnswer q) :
    Happens s i (s.fresh.settle (s.fresh.moveFails c))
  | resent {c : ExposureContext} (hu : s.unit.state = .moving) (hc : s.unit.context = some c) :
    Happens s .busyWaitExpiry (s.fresh.resendMove c)
  | lampEnds {c : ExposureContext} (hu : s.unit.state = .exposing) (hc : s.unit.context = some c) :
    Happens s .lampTimerExpiry
      (if c.kind = .margin then (s.fresh.lampEnds c).regPhase .readout else s.fresh.lampEnds c)
  | faultyReadout {i : Instr} (hu : s.unit.state = .readout)
    (hi : i = .lineTimerExpiry ∨ ∃ k, i = .sensorError k ∨ ∃ n l v x, i = .line k n l v x) :
    Happens s i (s.fresh.settle s.fresh.takeFaulty)
  | faultyExposure {i : Instr} (hu : s.unit.state = .exposing)
    (hi : ∃ k, i = .sensorError k ∨ ∃ n l v x, i = .line k n l v x) :
    Happens s i (s.fresh.settle s.fresh.stopTake.takeFaulty)
  | goodLine {c : ExposureContext} {k : BitVec 8} {n l : BitVec 16} {v : List Sample} {x : BitVec 16}
    (hu : s.unit.state = .readout) (hc : s.unit.context = some c) (hg : lineGood c n l v x = true) :
    Happens s (.line k n l v x) (s.fresh.settle (s.fresh.takeLine c v))
  | measured {r : Registration} (hr : s.registration = some r) (o : RegOutcome) (fog : Option Nat) (k : Nat) :
    Happens s .measurementEnd (s.fresh.settle (s.fresh.endRegistration r o fog k))
  | merged {c : MergeContext} {p : CalParams} {t : TileEntry} (ht : s.tile? c.id = some t) :
    Happens s .lineEvent
      { s.fresh.lineMerged c p t with mergeContext := some { c with nextLine := c.nextLine + 1 } }
  | completed {c : MergeContext} {p : CalParams} {t : TileEntry} (ht : s.tile? c.id = some t) :
    Happens s .lineEvent (s.fresh.settle ((s.fresh.lineMerged c p t).mergeCompleted t))
  | entryReady (id : TileId) : Happens s (.entryReady id) (s.fresh.entryTurnsReady id)
  | entryExpires (id : TileId) : Happens s (.entryExpiry id) (s.fresh.expireEntry id)

/-- The command of a request, taken by an `act` that serves this kind of request alone. -/
theorem Happens.taking {s t : State} {p : Port} {c : Instr} {act : Message → Request → State → Option State}
    (hact : ∀ m r s1 s2, act m r s1 = some s2 → c = r.command p ∧ s2 = s1.serve p m r)
    (h : Host.Outcome.next (s.taking p act) = (.next t : Host.Outcome State Fault Refusal)) : Happens s c t := by
  cases h
  rcases s.taking_cases p act with e | ⟨m, rest, r, hasks, e⟩
  · rw [e]; exact .nothing c
  · obtain ⟨rfl, e2⟩ := hact _ _ _ _ e
    rw [e2]; exact .served hasks

theorem State.answered_eq_some {s : State} {q : BitVec 8} {c : ExposureContext} (h : s.answered q = some c) :
    s.unit.state = .moving ∧ s.unit.context = some c := answered_some h

theorem State.take_eq_some {s s1 : State} {p : Port} {m : Message} (h : s.fresh.take p = some (m, s1)) :
    ∃ rest, Waits s p m rest ∧ s1 = s.taken p rest := by
  unfold State.take at h
  split at h
  · rename_i hmay
    split at h
    · rename_i rest hq
      cases h
      rw [State.fresh_port] at hmay hq
      exact ⟨rest, ⟨hmay, hq⟩, by simp [State.taken]⟩
    · cases h
  · cases h

/-- Every outcome of a command is in the list. -/
theorem exec_happens {c : Instr} {s t : State} (h : exec c s = .next t) : Happens s c t := by
  cases c with
  | reset => cases h; exact .reset
  | lock p =>
    simp only [exec, execLock] at h
    split at h <;> cases h
    · exact .lock ‹_›
    · exact .nothing _
  | lossOfLock p =>
    simp only [exec, execLossOfLock] at h
    split at h <;> cases h
    · exact .lossOfLock ‹_›
    · exact .nothing _
  | messageArrival p f =>
    simp only [exec, execMessageArrival] at h
    split at h <;> cases h
    · exact .arrival f
    · exact .nothing _
  | malformed p =>
    simp only [exec, execMalformed] at h
    split at h
    · cases h; exact .nothing _
    · rename_i m s1 htake
      obtain ⟨rest, hwaits, rfl⟩ := State.take_eq_some htake
      split at h <;> cases h
      · exact .refused hwaits _
      · exact .refused hwaits _
      · exact .discarded hwaits
      · exact .nothing _
  | messageAccepted p =>
    simp only [exec, execMessageAccepted] at h
    split at h
    · split at h <;> cases h
      · exact .accepted ‹_›
      · exact .nothing _
    · cases h; exact .nothing _
  | lineDelivered p =>
    simp only [exec, execLineDelivered] at h
    split at h
    · split at h <;> cases h
      · exact .delivered ‹_› ‹_› ‹_›
      · exact .nothing _
    · cases h; exact .nothing _
  | pendingNoticeIssue p => cases h; exact .claim (p := p) (by simp)
  | heldProgramDone p => cases h; exact .claim (p := p) (by simp)
  | failedClosePlace p => cases h; exact .claim (p := p) (by simp)
  | waitingBurst p => cases h; exact .claim (p := p) (by simp)
  | allocationGrant => cases h; exact .grant
  | workHandover => cases h; exact .handover
  | doneAnswer q =>
    simp only [exec, execDoneAnswer] at h
    split at h <;> cases h
    · rename_i ha; exact .moved ha
    · exact .nothing _
  | movingAnswer q =>
    simp only [exec, execMovingAnswer] at h
    split at h <;> cases h
    · rename_i ha; exact .timed ha (by simp)
    · exact .nothing _
  | busyAnswer q =>
    simp only [exec, execBusyAnswer] at h
    split at h
    · rename_i ha
      split at h <;> cases h
      · exact .timed ha (by simp)
      · exact .moveFails (State.answered_eq_some ha).1 (State.answered_eq_some ha).2 (.inr ⟨q, .inl rfl⟩)
    · cases h; exact .nothing _
  | faultAnswer q =>
    simp only [exec, execFaultAnswer] at h
    split at h <;> cases h
    · rename_i ha
      exact .moveFails (State.answered_eq_some ha).1 (State.answered_eq_some ha).2 (.inr ⟨q, .inr rfl⟩)
    · exact .nothing _
  | answerTimerExpiry =>
    simp only [exec, execAnswerTimerExpiry] at h
    split at h <;> cases h
    · exact .moveFails ‹_› ‹_› (.inl rfl)
    · exact .nothing _
  | busyWaitExpiry =>
    simp only [exec, execBusyWaitExpiry] at h
    split at h <;> cases h
    · exact .resent ‹_› ‹_›
    · exact .nothing _
  | lampTimerExpiry =>
    simp only [exec, execLampTimerExpiry] at h
    split at h <;> cases h
    · exact .lampEnds ‹_› ‹_›
    · exact .nothing _
  | line k n l v x =>
    simp only [exec, execLine] at h
    split at h
    · split at h
      · cases h; exact .faultyExposure ‹_› ⟨k, .inr ⟨n, l, v, x, rfl⟩⟩
      · split at h <;> cases h
        · exact .goodLine ‹_› ‹_› ‹_›
        · exact .faultyReadout ‹_› (.inr ⟨k, .inr ⟨n, l, v, x, rfl⟩⟩)
      · cases h; exact .nothing _
    · cases h; exact .nothing _
  | sensorError k =>
    simp only [exec, execSensorError] at h
    split at h
    · split at h <;> cases h
      · exact .faultyExposure ‹_› ⟨k, .inl rfl⟩
      · exact .faultyReadout ‹_› (.inr ⟨k, .inl rfl⟩)
      · exact .nothing _
    · cases h; exact .nothing _
  | lineTimerExpiry =>
    simp only [exec, execLineTimerExpiry] at h
    split at h <;> cases h
    · exact .faultyReadout ‹_› (.inl rfl)
    · exact .nothing _
  | measurementEnd =>
    simp only [exec, execMeasurementEnd] at h
    split at h
    · split at h
      · split at h <;> cases h
        · exact .measured ‹_› _ _ _
        · exact .measured ‹_› _ _ _
      · cases h; exact .nothing _
    · cases h; exact .nothing _
  | lineEvent =>
    simp only [exec, execLineEvent] at h
    split at h
    · split at h
      · split at h <;> cases h
        · exact .merged ‹_›
        · exact .completed ‹_›
      · cases h; exact .nothing _
    · cases h; exact .nothing _
  | entryReady id => cases h; exact .entryReady id
  | entryExpiry id => cases h; exact .entryExpires id
  | _ =>
    refine Happens.taking (fun m r s1 s2 hact => ?_) h
    cases r <;> cases hact
    exact ⟨rfl, rfl⟩

/-! ### A step -/

/-- A step idles, or runs the command at the front of the queue. -/
theorem step_happens {s t : State} (h : step s = .next t) :
    t = s ∨ ∃ c rest, Happens { s with pending := rest } c t := by
  unfold step at h
  split at h
  · cases h; exact .inl rfl
  · exact .inr ⟨_, _, exec_happens h⟩

/-- What every command keeps, and what does not rest on the waiting commands, every step keeps. -/
theorem step_keeps {P : State → Prop} (hpending : ∀ s rest, P s → P { s with pending := rest })
    (hexec : ∀ s c t, Happens s c t → P s → P t) {s t : State} (hs : P s) (h : step s = .next t) : P t := by
  rcases step_happens h with rfl | ⟨c, rest, hc⟩
  · exact hs
  · exact hexec _ c t hc (hpending s rest hs)

end Sys2Proof.Machine
end

section
/-! The tag of an accepted program (03 R56): the candidates from the counter on, 65535 being followed by 1, and the first of
them that nothing holds. -/

namespace Sys2Proof.Machine

/-- The candidate `i` places after `t`. -/
def candidate (t i : Nat) : Nat := (t - 1 + i) % 65535 + 1

theorem candidate_range (t i : Nat) : 1 ≤ candidate t i ∧ candidate t i ≤ 65535 := by
  have := Nat.mod_lt (t - 1 + i) (show 65535 > 0 by decide)
  unfold candidate; omega

theorem candidate_zero {t : Nat} (h1 : 1 ≤ t) (h2 : t ≤ 65535) : candidate t 0 = t := by
  unfold candidate; omega

theorem candidate_nextTag {t : Nat} (h1 : 1 ≤ t) (h2 : t ≤ 65535) (i : Nat) :
    candidate (nextTag t) i = candidate t (i + 1) := by
  unfold candidate
  rw [nextTag_eq]
  split <;> omega

theorem nextTag_range {t : Nat} (h1 : 1 ≤ t) (h2 : t ≤ 65535) : 1 ≤ nextTag t ∧ nextTag t ≤ 65535 := by
  rw [nextTag_eq]; split <;> omega

theorem candidate_injective_below {t i j : Nat} (hi : i < 65535) (hj : j < 65535) (h : candidate t i = candidate t j) :
    i = j := by
  unfold candidate at h; omega

/-- The search ends at a candidate with every one before it held, and with that one free unless the bound was reached. -/
theorem firstFreeTag_eq_candidate (held : List Nat) (k : Nat) {t : Nat} (h1 : 1 ≤ t) (h2 : t ≤ 65535) :
    ∃ i, i ≤ k ∧ firstFreeTag held k t = candidate t i ∧ (∀ j, j < i → candidate t j ∈ held) ∧
      (i < k → candidate t i ∉ held) := by
  induction k generalizing t with
  | zero => exact ⟨0, Nat.le_refl _, (candidate_zero h1 h2).symm, by simp, by simp⟩
  | succ k ih =>
    by_cases hheld : t ∈ held
    · obtain ⟨hn1, hn2⟩ := nextTag_range h1 h2
      obtain ⟨i, hi, heq, hbefore, hfree⟩ := ih hn1 hn2
      simp only [candidate_nextTag h1 h2] at heq hbefore hfree
      refine ⟨i + 1, by omega, by simpa [firstFreeTag, hheld] using heq, ?_, fun h => hfree (by omega)⟩
      intro j hj
      cases j with
      | zero => rwa [candidate_zero h1 h2]
      | succ j => exact hbefore j (by omega)
    · refine ⟨0, by omega, ?_, by simp, fun _ => ?_⟩
      · simp [firstFreeTag, hheld, candidate_zero h1 h2]
      · rwa [candidate_zero h1 h2]

/-- Among one candidate more than there are held tags, one is free. -/
theorem candidate_not_held {held : List Nat} {t : Nat} (hlen : held.length < 65535)
    (hbefore : ∀ j, j < held.length → candidate t j ∈ held) : candidate t held.length ∉ held := by
  intro hlast
  have hnodup : ((List.range (held.length + 1)).map (candidate t)).Nodup := by
    refine List.Nodup.map_on (fun i hi j hj h => ?_) List.nodup_range
    rw [List.mem_range] at hi hj
    exact candidate_injective_below (by omega) (by omega) h
  have hsub : (List.range (held.length + 1)).map (candidate t) ⊆ held := by
    intro x hx
    obtain ⟨j, hj, rfl⟩ := List.mem_map.1 hx
    rw [List.mem_range] at hj
    rcases Nat.lt_succ_iff_lt_or_eq.1 hj with hlt | rfl
    · exact hbefore j hlt
    · exact hlast
  have := (hnodup.subperm hsub).length_le
  simp at this

/-- The tag chosen at an acceptance is the first candidate that nothing holds. -/
theorem State.chooseTag_spec {s : State} (h1 : 1 ≤ s.tagCounter) (h2 : s.tagCounter ≤ 65535)
    (hlen : s.heldTags.length < 65535) :
    ∃ i, s.chooseTag = candidate s.tagCounter i ∧ s.chooseTag ∉ s.heldTags ∧
      ∀ j, j < i → candidate s.tagCounter j ∈ s.heldTags := by
  obtain ⟨i, hi, heq, hbefore, hfree⟩ := firstFreeTag_eq_candidate s.heldTags s.heldTags.length h1 h2
  refine ⟨i, heq, ?_, hbefore⟩
  rw [State.chooseTag, heq]
  rcases Nat.lt_or_eq_of_le hi with hlt | rfl
  · exact hfree hlt
  · exact candidate_not_held hlen hbefore

theorem State.not_mem_heldTags {s : State} {tag : Nat} :
    tag ∉ s.heldTags ↔ (∀ g ∈ s.programs, g.tag ≠ tag) ∧ (∀ t ∈ s.directory, t.id.tag ≠ tag) ∧
      ∀ e ∈ s.entries, e.tile.tag ≠ tag := by
  simp [State.heldTags, not_or]

/-- Settles O37: the search stops at the first free candidate, and one is free among as many as the sizes allow. -/
theorem chosenTagIsFree : Obligations.ChosenTagIsFree := by
  intro s h1 h2 hprograms hdirectory hentries
  obtain ⟨i, heq, hfree, hbefore⟩ := State.chooseTag_spec h1 h2 (by simp [State.heldTags]; omega)
  obtain ⟨hp, hd, he⟩ := State.not_mem_heldTags.1 hfree
  have hrange := candidate_range s.tagCounter i
  rw [← heq] at hrange
  exact ⟨hp, hd, he, hrange.1, hrange.2, i, heq, hbefore⟩

end Sys2Proof.Machine
end

section
/-! The stage at every step: each outcome of a command keeps the occupant, the indicator and the one plate on the stage in
agreement with the plate records (01 R4, R6). -/

namespace Sys2Proof.Machine

/-- After reset no slot holds a plate (01 R30). -/
theorem State.plate_reset (q : List Instr) (i : Nat) : State.plate { State.reset with pending := q } i = none := by
  simp only [State.plate, State.reset, Vector.getElem?_replicate]
  split <;> rfl

theorem StageAgrees.reset (q : List Instr) : StageAgrees { State.reset with pending := q } := by
  refine ⟨⟨rfl, rfl⟩, fun i j a b ha => ?_, fun r hr => ?_⟩
  · rw [State.plate_reset] at ha; cases ha
  · cases hr

theorem KeepsStage.taken (s : State) (p : Port) (rest : List Message) : KeepsStage s (s.taken p rest) :=
  (KeepsStage.fresh s).trans (KeepsStage.setPort _ _ _)

theorem KeepsStage.serve (s : State) (p : Port) (m : Message) (r : Request) : KeepsStage s (s.serve p m r) := by
  cases r with
  | plateEnter f => exact .plateEnter _ _ _ _
  | readPlate i => exact .readPlate _ _ _ _
  | raiseBudget i n => exact .raiseBudget _ _ _ _ _
  | retirePlate i => exact .retirePlate _ _ _ _
  | keep i => exact .keep _ _ _ _
  | unkeep i => exact .unkeep _ _ _ _
  | releasePlate i => exact .releasePlate _ _ _ _
  | register i => exact .register _ _ _ _
  | submitProgram f => exact .submitProgram _ _ _ _
  | cancelProgram tag => exact .cancelProgram _ _ _ _
  | calibrate t l w => exact .calibrate _ _ _ _ _ _
  | discardTile id => exact .discardTile _ _ _ _
  | fetchTile id c => exact .fetchTile _ _ _ _ _
  | openDrain id t k l c => exact .openDrain _ _ _ _ _ _ _ _
  | stopRead => exact .stopRead _ _ _
  | setWindow b l => exact .setWindow _ _ _ _ _
  | readSettings => exact .reply _ _ _ _ _
  | writeSettings => exact .writeSettings _ _ _ _
  | setPreview on => exact .setPreview _ _ _ _
  | queryStatus => exact .reply _ _ _ _ _
  | platePlaced i => exact .platePlaced _ _ _ _
  | plateRemoved i => exact .plateRemoved _ _ _ _
  | annotate i n => exact .annotate _ _ _ _ _
  | portReset => exact .portReset _ _

theorem KeepsStage.lineDelivered (s : State) (p : Port) (e : StreamEntry) (r : Read) (t : TileEntry) :
    KeepsStage s (s.lineDelivered p e r t) := by
  unfold State.lineDelivered
  dsimp only
  split <;> (apply KeepsStage.same <;> simp)

theorem KeepsStage.dropEntries (s : State) (p : Port) : KeepsStage s (s.dropEntries p) := by
  apply KeepsStage.same <;> rfl

theorem KeepsStage.expireEntry (s : State) (id : TileId) : KeepsStage s (s.expireEntry id) := by
  apply KeepsStage.same <;> rfl

theorem KeepsStage.mergeContext (s : State) (c : Option MergeContext) :
    KeepsStage s { s with mergeContext := c } := by
  apply KeepsStage.same <;> rfl

theorem KeepsStage.lampEnds (s : State) (c : ExposureContext) : KeepsStage s (s.lampEnds c) := by
  apply KeepsStage.same <;> rfl

/-- Every outcome of a command keeps the stage in order. -/
theorem Happens.keepsStage {s t : State} {c : Instr} (h : Happens s c t) : KeepsStage s t := by
  have fresh := KeepsStage.fresh s
  cases h with
  | nothing => exact fresh
  | served hasks => exact (KeepsStage.taken s _ _).trans (.serve _ _ _ _)
  | discarded => exact .taken _ _ _
  | refused => exact (KeepsStage.taken s _ _).trans (.place _ _ _)
  | reset => exact fun _ => .reset _
  | lock => exact (fresh.trans (.setPort _ _ _)).trans (.serveFreed _ _ _)
  | lossOfLock => exact (fresh.trans (.setPort _ _ _)).trans (.trans (.dropEntries _ _) (.endReadSilently _ _))
  | arrival f => exact fresh.trans (.setPort _ _ _)
  | accepted => exact ((fresh.trans (.setPort _ _ _)).trans (.emit _ _)).trans (.serveFreed _ _ _)
  | delivered => exact (fresh.trans (.lineDelivered _ _ _ _ _)).trans (.serveFreed _ _ _)
  | claim => exact fresh.trans (.serveAlone _ _ _)
  | grant => exact fresh.trans (.grantWaiting _)
  | handover => exact fresh.trans (.offerUnit _)
  | moved => exact fresh.trans (.trans (.withTimer _ _) (.trans (.beginExposure _) (.settle _ _)))
  | timed => exact fresh.trans (.withTimer _ _)
  | moveFails => exact fresh.trans (.trans (.moveFails _ _) (.settle _ _))
  | resent => exact fresh.trans (.resendMove _ _)
  | lampEnds =>
    split
    · exact fresh.trans (.trans (.lampEnds _ _) (.regPhase _ _))
    · exact fresh.trans (.lampEnds _ _)
  | faultyReadout => exact fresh.trans (.trans (.takeFaulty _) (.settle _ _))
  | faultyExposure => exact fresh.trans (.trans (.stopTake _) (.trans (.takeFaulty _) (.settle _ _)))
  | goodLine => exact fresh.trans (.trans (.takeLine _ _ _) (.settle _ _))
  | measured hr => exact fresh.trans (.trans (.endCurrent s.fresh hr _ _ _) (.settle _ _))
  | merged => exact fresh.trans (.trans (.lineMerged _ _ _ _) (.mergeContext _ _))
  | completed => exact fresh.trans (.trans (.lineMerged _ _ _ _) (.trans (.mergeCompleted _ _) (.settle _ _)))
  | entryReady id => exact fresh.trans (.entryTurnsReady _ _)
  | entryExpires id => exact fresh.trans (.expireEntry _ _)

end Sys2Proof.Machine
end

section
/-! The tile store at every step: each outcome of a command keeps the pages placed, the tile entries in agreement with
their programs, and the merge queue and the reservation lists within their sizes (`KeepsStore`). The tag of an accepted
program must be free (03 R56), for which the tables must be within their sizes. -/

namespace Sys2Proof.Machine

theorem TilesAgree.reset (q : List Instr) : TilesAgree { State.reset with pending := q } := by
  constructor <;> simp [State.reset, ExposureUnit.reset]

theorem PagesPlaced.reset (q : List Instr) : PagesPlaced { State.reset with pending := q } := by
  simp [PagesPlaced, State.reset]

theorem Sizes.reset (q : List Instr) : Sizes { State.reset with pending := q } := by
  refine ⟨by constructor <;> simp [State.reset], fun i pl hp => ?_⟩
  rw [State.plate_reset] at hp
  cases hp

theorem KeepsStore.taken (s : State) (p : Port) (rest : List Message) : KeepsStore s (s.taken p rest) :=
  (KeepsStore.fresh s).trans (KeepsStore.setPort _ _ _)

/-- The tag chosen at an acceptance is free where the tables are within their sizes (03 R56). -/
theorem KeepsStore.submit {s : State} (hcounter : 1 ≤ s.tagCounter ∧ s.tagCounter ≤ 65535) (hlen : s.heldTags.length < 65535)
    (p : Port) (m : Message) (f : SubmitFields) : KeepsStore s (s.submitProgram p m f) := by
  obtain ⟨i, heq, hfree, -⟩ := State.chooseTag_spec hcounter.1 hcounter.2 hlen
  obtain ⟨hp, hd, -⟩ := State.not_mem_heldTags.1 hfree
  exact KeepsStore.submitProgram s hp hd (heq ▸ candidate_range _ _) p m f

theorem KeepsStore.serve {s : State} (hcounter : 1 ≤ s.tagCounter ∧ s.tagCounter ≤ 65535)
    (hlen : s.heldTags.length < 65535) (p : Port) (m : Message) (r : Request) : KeepsStore s (s.serve p m r) := by
  cases r with
  | plateEnter f => exact .plateEnter _ _ _ _
  | readPlate i => exact .readPlate _ _ _ _
  | raiseBudget i n => exact .raiseBudget _ _ _ _ _
  | retirePlate i => exact .retirePlate _ _ _ _
  | keep i => exact .keep _ _ _ _
  | unkeep i => exact .unkeep _ _ _ _
  | releasePlate i => exact .releasePlate _ _ _ _
  | register i => exact .register _ _ _ _
  | submitProgram f => exact .submit hcounter hlen _ _ _
  | cancelProgram tag => exact .cancelProgram _ _ _ _
  | calibrate t l w => exact .calibrate _ _ _ _ _ _
  | discardTile id => exact .discardTile _ _ _ _
  | fetchTile id c => exact .fetchTile _ _ _ _ _
  | openDrain id t k l c => exact .openDrain _ _ _ _ _ _ _ _
  | stopRead => exact .stopRead _ _ _
  | setWindow b l => exact .setWindow _ _ _ _ _
  | readSettings => exact .reply _ _ _ _ _
  | writeSettings => exact .writeSettings _ _ _ _
  | setPreview on => exact .setPreview _ _ _ _
  | queryStatus => exact .reply _ _ _ _ _
  | platePlaced i => exact .platePlaced _ _ _ _
  | plateRemoved i => exact .plateRemoved _ _ _ _
  | annotate i n => exact .annotate _ _ _ _ _
  | portReset => exact .portReset _ _

theorem KeepsStore.lineDelivered (s : State) (p : Port) (e : StreamEntry) (r : Read) {t : TileEntry} {id : TileId}
    (ht : s.tile? id = some t) : KeepsStore s (s.lineDelivered p e r t) := by
  have hid : s.tile? t.id = some t := by rwa [State.tile_id ht]
  unfold State.lineDelivered
  dsimp only
  split
  · exact (KeepsStore.setPort s _ _).trans (.trans (.emit _ _) (.closeDelivered _ _ _ _ (by simpa [State.tile?] using hid)))
  · exact (KeepsStore.setPort s _ _).trans (.emit _ _)

theorem KeepsStore.dropPortEntries (s : State) (p : Port) : KeepsStore s (s.dropEntries p) := by
  apply KeepsStore.same <;> rfl

theorem KeepsStore.expireEntry (s : State) (id : TileId) : KeepsStore s (s.expireEntry id) := by
  apply KeepsStore.same <;> rfl

theorem KeepsStore.mergeContext (s : State) (c : Option MergeContext) :
    KeepsStore s { s with mergeContext := c } := by
  apply KeepsStore.same <;> rfl

/-- The lamp phase ends outside disposal, and the unit is then in READOUT (04 R89). -/
theorem KeepsStore.lampEnds {s : State} {c : ExposureContext} (hc : s.unit.context = some c) : KeepsStore s (s.lampEnds c) := by
  refine (KeepsStore.stopTake s).trans (.unit _ _ ?_ ?_ ?_)
  · intro h c' id hc' hk hd
    cases hc'
    exact h.unitTile c id hc hk hd
  · intro h c' hc' hd
    cases hc'
    rfl
  · intro _ hidle; cases hidle

/-- Every outcome of a command keeps the store in order. -/
theorem Happens.keepsStore {s t : State} {c : Instr} (hcounter : 1 ≤ s.tagCounter ∧ s.tagCounter ≤ 65535)
    (hlen : s.heldTags.length < 65535) (h : Happens s c t) : KeepsStore s t := by
  have fresh := KeepsStore.fresh s
  cases h with
  | nothing => exact fresh
  | served hasks => exact (KeepsStore.taken s _ _).trans (.serve (by simpa using hcounter) (by simpa using hlen) _ _ _)
  | discarded => exact .taken _ _ _
  | refused => exact (KeepsStore.taken s _ _).trans (.place _ _ _)
  | reset => exact fun _ => ⟨.reset _, fun _ => .reset _, fun _ => .reset _⟩
  | lock => exact (fresh.trans (.setPort _ _ _)).trans (.serveFreed _ _ _)
  | lossOfLock => exact (fresh.trans (.setPort _ _ _)).trans (.trans (.dropPortEntries _ _) (.endReadSilently _ _))
  | arrival f => exact fresh.trans (.setPort _ _ _)
  | accepted => exact ((fresh.trans (.setPort _ _ _)).trans (.emit _ _)).trans (.serveFreed _ _ _)
  | delivered _ _ ht => exact fresh.trans (.trans (.lineDelivered s.fresh _ _ _ (by simpa using ht)) (.serveFreed _ _ _))
  | claim => exact fresh.trans (.serveAlone _ _ _)
  | grant => exact fresh.trans (.grantWaiting _)
  | handover => exact fresh.trans (.offerUnit _)
  | moved ha =>
    have hmoving := (State.answered_eq_some ha).1
    refine fresh.trans (.trans (.withTimer _ _) (.trans (.beginExposure _ (fun hs => hs.moving ?_)) (.settle _ _)))
    simp [State.withTimer, hmoving]
  | timed => exact fresh.trans (.withTimer _ _)
  | moveFails hu hc =>
    refine fresh.trans (.trans (.moveFails s.fresh hc (fun hs => hs.moving ?_ _ hc)) (.settle _ _))
    simp [hu]
  | resent _ hc => exact fresh.trans (.resendMove s.fresh _ hc)
  | lampEnds _ hc =>
    have hends : KeepsStore s (s.fresh.lampEnds _) := fresh.trans (.lampEnds (s := s.fresh) hc)
    split
    · exact hends.trans (.regPhase _ _)
    · exact hends
  | faultyReadout => exact fresh.trans (.trans (.takeFaulty _) (.settle _ _))
  | faultyExposure => exact fresh.trans (.trans (.stopTake _) (.trans (.takeFaulty _) (.settle _ _)))
  | goodLine _ hc => exact fresh.trans (.trans (.takeLine s.fresh hc _) (.settle _ _))
  | measured => exact fresh.trans (.trans (.endRegistration _ _ _ _ _) (.settle _ _))
  | merged => exact fresh.trans (.trans (.lineMerged _ _ _ _) (.mergeContext _ _))
  | completed ht =>
    exact fresh.trans (.trans (.lineMerged _ _ _ _)
      (.trans (.mergeCompleted _ _ (lineMerged_tile s.fresh _ _ _ _ ht)) (.settle _ _)))
  | entryReady id => exact fresh.trans (.entryTurnsReady _ _)
  | entryExpires id => exact fresh.trans (.expireEntry _ _)

/-- A step keeps the store in order where the tables are within their sizes. -/
theorem step_keepsStore {s t : State} (hq : QueuesKept s) (h : step s = .next t) (hs : TilesAgree s) :
    TilesAgree t ∧ (PagesPlaced s → PagesPlaced t) ∧ (Sizes s → Sizes t) := by
  rcases step_happens h with rfl | ⟨c, rest, hc⟩
  · exact KeepsStore.refl t hs
  · obtain ⟨-, hprograms, hdirectory, hentries⟩ := hq
    have hpending : KeepsStore s { s with pending := rest } := by apply KeepsStore.same <;> rfl
    refine hpending.trans (hc.keepsStore hs.counter ?_) hs
    simp [State.heldTags]; omega

end Sys2Proof.Machine
end

section
/-! What operations leave of the plates' identity and accounts, of the ports' links and list sizes, of the sizes of the
tables, of the lamp gate, the calibration, the pages and the settings: the relation `Follows` between the state before an
operation and the state after it. The few changes it does not allow are listed as `Alters`. -/

namespace Sys2Proof.Machine

/-! ### Plate records -/

/-- What becomes of a plate's record while its slot is not FREE (01 R1, R9): identity and description stay, budget and spent
dose do not fall, and spent plus reserved stays within the budget. -/
structure Plate.Follows (a b : Plate) : Prop where
  accession : b.accession = a.accession
  sizeClass : b.sizeClass = a.sizeClass
  condition : b.condition = a.condition
  carrier : b.carrier = a.carrier
  handlerPort : b.handlerPort = a.handlerPort
  budget : a.budget ≤ b.budget
  spent : a.spent ≤ b.spent
  within : a.withinBudget → b.withinBudget

theorem Plate.Follows.refl (a : Plate) : a.Follows a := ⟨rfl, rfl, rfl, rfl, rfl, Nat.le_refl _, Nat.le_refl _, id⟩

theorem Plate.Follows.trans {a b c : Plate} (h : a.Follows b) (k : b.Follows c) : a.Follows c :=
  ⟨k.accession.trans h.accession, k.sizeClass.trans h.sizeClass, k.condition.trans h.condition,
    k.carrier.trans h.carrier, k.handlerPort.trans h.handlerPort, h.budget.trans k.budget, h.spent.trans k.spent,
    fun w => k.within (h.within w)⟩

/-- What the staging unit and the program queue change of a plate's record: neither its identity nor its budget, its spent
dose, its keep set and its base_fog. -/
structure Plate.Settled (a b : Plate) : Prop extends Plate.Follows a b where
  sameBudget : b.budget = a.budget
  sameSpent : b.spent = a.spent
  keeps : b.keeps = a.keeps
  baseFog : b.baseFog = a.baseFog

theorem Plate.Settled.refl (a : Plate) : a.Settled a := ⟨.refl a, rfl, rfl, rfl, rfl⟩

theorem Plate.Settled.trans {a b c : Plate} (h : a.Settled b) (k : b.Settled c) : a.Settled c :=
  ⟨h.toFollows.trans k.toFollows, k.sameBudget.trans h.sameBudget, k.sameSpent.trans h.sameSpent,
    k.keeps.trans h.keeps, k.baseFog.trans h.baseFog⟩

theorem Plate.Settled.release (pl : Plate) (tag : Nat) : pl.Settled (pl.release tag).2 :=
  ⟨⟨rfl, rfl, rfl, rfl, rfl, Nat.le_refl _, Nat.le_refl _, fun h => Plate.release_withinBudget h tag⟩, rfl, rfl, rfl, rfl⟩

/-- The remaining amount of a tag's entry, as the sum of the list sees it. -/
theorem sum_setRemaining_add (pl : Plate) (tag amount : Nat) :
    ((setRemaining pl.reservations tag amount).map (·.remaining)).sum + pl.remainingOf tag ≤ pl.reserved + amount := by
  have hsum : ((setRemaining pl.reservations tag amount).map (·.remaining)).sum + pl.remainingOf tag = pl.reserved +
      (if (pl.reservations.find? (fun r => decide (r.tag = tag))).isSome then amount else 0) :=
    sum_setRemaining pl.reservations tag amount
  have hle : (if (pl.reservations.find? (fun r => decide (r.tag = tag))).isSome then amount else 0) ≤ amount := by
    split <;> omega
  omega

theorem remainingOf_le_reserved (pl : Plate) (tag : Nat) : pl.remainingOf tag ≤ pl.reserved := by
  unfold Plate.remainingOf Plate.reserved
  split
  · rename_i r hr
    exact List.le_sum_of_mem (List.mem_map_of_mem (List.mem_of_find?_eq_some hr))
  · exact Nat.zero_le _

theorem Plate.Settled.reserve {pl pl' : Plate} {tag e : Nat} (h : pl.reserve tag e = some pl') : pl.Settled pl' := by
  have hw := fun w => Plate.reserve_withinBudget w h
  unfold Plate.reserve at h
  split at h <;> cases h
  exact ⟨⟨rfl, rfl, rfl, rfl, rfl, Nat.le_refl _, Nat.le_refl _, hw⟩, rfl, rfl, rfl, rfl⟩

theorem Plate.Settled.reestimate {pl pl' : Plate} {tag e : Nat} (h : pl.reestimate tag e = some pl') :
    pl.Settled pl' := by
  unfold Plate.reestimate at h
  split at h <;> cases h
  refine ⟨⟨rfl, rfl, rfl, rfl, rfl, Nat.le_refl _, Nat.le_refl _, fun w => ?_⟩, rfl, rfl, rfl, rfl⟩
  have hsum := sum_setRemaining_add pl tag e
  unfold Plate.withinBudget Plate.reserved Plate.remainder at *
  simp only at *
  unfold Plate.reserved at *
  omega

/-- A charge that is granted stays within the budget: what exceeds the entry is taken from the remainder (01 R12). -/
theorem Plate.Follows.programCharge (pl : Plate) (tag cost : Nat) : pl.Follows (pl.programCharge tag cost).2 := by
  unfold Plate.programCharge
  split
  · exact .refl pl
  · split
    · refine ⟨rfl, rfl, rfl, rfl, rfl, Nat.le_refl _, Nat.le_add_right _ _, fun w => ?_⟩
      have hsum := sum_setRemaining_add pl tag (pl.remainingOf tag - cost)
      unfold Plate.withinBudget Plate.reserved at *
      simp only at *
      omega
    · split
      · refine ⟨rfl, rfl, rfl, rfl, rfl, Nat.le_refl _, Nat.le_add_right _ _, fun w => ?_⟩
        have hsum := sum_setRemaining_add pl tag 0
        unfold Plate.withinBudget Plate.remainder Plate.reserved at *
        simp only at *
        omega
      · exact .refl pl

theorem Plate.Follows.unreservedCharge (pl : Plate) (required : PlateState) (cost : Nat) :
    pl.Follows (pl.unreservedCharge required cost).2 := by
  unfold Plate.unreservedCharge
  split
  · exact .refl pl
  · split
    · refine ⟨rfl, rfl, rfl, rfl, rfl, Nat.le_refl _, Nat.le_add_right _ _, fun w => ?_⟩
      unfold Plate.withinBudget Plate.remainder Plate.reserved at *
      simp only at *
      omega
    · exact .refl pl

/-- Each record of the table before is related to the one after, and no slot becomes FREE or stops being it. -/
def PlatesRelated (R : Plate → Plate → Prop) (s t : State) : Prop :=
  ∀ i, (s.plate i = none → t.plate i = none) ∧ ∀ a, s.plate i = some a → ∃ b, t.plate i = some b ∧ R a b

theorem PlatesRelated.of_plates {R : Plate → Plate → Prop} (hrefl : ∀ a, R a a) {s t : State}
    (h : t.plates = s.plates) : PlatesRelated R s t :=
  fun i => ⟨fun hi => (State.plate_congr h i).trans hi, fun a ha => ⟨a, (State.plate_congr h i).trans ha, hrefl a⟩⟩

theorem PlatesRelated.trans {R : Plate → Plate → Prop} (htrans : ∀ a b c, R a b → R b c → R a c) {s t u : State}
    (h : PlatesRelated R s t) (k : PlatesRelated R t u) : PlatesRelated R s u := by
  refine fun i => ⟨fun hi => (k i).1 ((h i).1 hi), fun a ha => ?_⟩
  obtain ⟨b, hb, hab⟩ := (h i).2 a ha
  obtain ⟨c, hc, hbc⟩ := (k i).2 b hb
  exact ⟨c, hc, htrans a b c hab hbc⟩

theorem PlatesRelated.imp {R Q : Plate → Plate → Prop} (hRQ : ∀ a b, R a b → Q a b) {s t : State}
    (h : PlatesRelated R s t) : PlatesRelated Q s t := by
  refine fun i => ⟨(h i).1, fun a ha => ?_⟩
  obtain ⟨b, hb, hab⟩ := (h i).2 a ha
  exact ⟨b, hb, hRQ a b hab⟩

theorem PlatesRelated.setPlate {R : Plate → Plate → Prop} (hrefl : ∀ a, R a a) {s : State} {i : Nat} {a b : Plate}
    (ha : s.plate i = some a) (hab : R a b) : PlatesRelated R s (s.setPlate i (some b)) := by
  have hi := State.lt_of_plate ha
  intro j
  rw [State.plate_setPlate]
  by_cases hij : i = j
  · subst hij
    rw [if_pos ⟨rfl, hi⟩, ha]
    exact ⟨nofun, fun c hc => ⟨b, rfl, Option.some.inj hc ▸ hab⟩⟩
  · rw [if_neg (fun h => hij h.1)]
    exact ⟨id, fun c hc => ⟨c, hc, hrefl c⟩⟩

/-! ### Ports -/

/-- What becomes of a port beside LOCK, LOSS_OF_LOCK and RESET: its link and UP count stay, and its queue and lists stay
within their sizes (09 R195, R198, R202). -/
structure PortState.Follows (q r : PortState) : Prop where
  link : r.link = q.link
  upCount : r.upCount = q.upCount
  bounded : q.bounded → r.bounded

theorem PortState.Follows.refl (q : PortState) : q.Follows q := ⟨rfl, rfl, id⟩

theorem PortState.Follows.trans {q r x : PortState} (h : q.Follows r) (k : r.Follows x) : q.Follows x :=
  ⟨k.link.trans h.link, k.upCount.trans h.upCount, fun w => k.bounded (h.bounded w)⟩

/-- A port whose queue and lists do not grow. -/
theorem PortState.Follows.of_le {q r : PortState} (hlink : r.link = q.link) (hup : r.upCount = q.upCount)
    (hin : r.inbound.length ≤ q.inbound.length) (hretry : r.retry.length ≤ q.retry.length)
    (hout : r.outbound.length ≤ q.outbound.length) : q.Follows r :=
  ⟨hlink, hup, fun ⟨h1, h2, h3⟩ => ⟨hin.trans h1, hretry.trans h2, hout.trans h3⟩⟩

theorem PortState.Follows.push {q : PortState} (h : q.outbound.length < 64) (e : OutEntry) : q.Follows (q.push e) := by
  refine ⟨by simp, by simp, fun ⟨h1, h2, h3⟩ => ⟨by simpa using h1, by simpa using h2, ?_⟩⟩
  simp only [PortState.push_rest, List.length_append, List.length_singleton]
  omega

theorem PortState.Follows.offer (q : PortState) (e : OutEntry) : q.Follows (q.offer e) :=
  ⟨by simp, by simp, fun ⟨h1, h2, h3⟩ => ⟨by simpa using h1, by simpa using h2, PortState.offer_length h3 e⟩⟩

theorem PortState.Follows.beginSending (q : PortState) : q.Follows q.beginSending := by
  apply PortState.Follows.of_le <;> simp

theorem PortState.Follows.accept (q : PortState) (m : Message) : q.Follows (q.accept m) := by
  unfold PortState.accept
  split
  · refine ⟨rfl, rfl, fun ⟨h1, h2, h3⟩ => ⟨?_, h2, h3⟩⟩
    simp only [List.length_append, List.length_singleton]
    omega
  · split
    · refine ⟨by simp, by simp, fun ⟨h1, h2, h3⟩ => ⟨by simpa using h1, ?_, by simpa using h3⟩⟩
      simp only [PortState.beginSending_rest, List.length_append, List.length_singleton]
      omega
    · exact .refl q

theorem PortState.Follows.acceptMessage {q r : PortState} {m : OutMessage} (h : q.acceptMessage = some (m, r)) :
    q.Follows r := by
  unfold PortState.acceptMessage at h
  repeat' split at h
  all_goals cases h
  all_goals apply PortState.Follows.of_le <;> simp_all
  split <;> simp

theorem PortState.Follows.lineLeaves {q : PortState} {e : StreamEntry} (h : q.lineSending = some e) (ended : Bool) :
    q.Follows (q.lineLeaves e ended) := by
  have hne : q.outbound ≠ [] := by
    rintro hnil
    simp [PortState.lineSending, hnil] at h
  have hpos := List.length_pos_iff.2 hne
  refine .of_le rfl rfl (Nat.le_refl _) (Nat.le_refl _) ?_
  unfold PortState.lineLeaves
  dsimp only
  split
  · simp
  · simp only [List.length_cons, List.length_tail]
    omega

theorem PortState.Follows.modStream (q : PortState) (f : StreamEntry → StreamEntry) : q.Follows (q.modStream f) := by
  apply PortState.Follows.of_le <;> simp [PortState.modStream]

theorem PortState.Follows.removeStream (q : PortState) : q.Follows q.removeStream := by
  apply PortState.Follows.of_le <;> simp [PortState.removeStream, List.length_filter_le]

theorem PortState.Follows.stopStream (q : PortState) : q.Follows q.stopStream := by
  unfold PortState.stopStream
  split
  · split
    · exact .modStream _ _
    · exact .removeStream _
  · exact .refl _

theorem PortState.Follows.setRead (q : PortState) (r : Option Read) : q.Follows { q with read := r } :=
  ⟨rfl, rfl, id⟩

/-! ### The relation -/

/-- What every operation but those of `Alters` leaves as it was, or keeps; the plate records are related by `R`. -/
structure FollowsBy (R : Plate → Plate → Prop) (s t : State) : Prop where
  stage : StageTrue s → StageTrue t
  plates : PlatesRelated R s t
  ports : ∀ p, (s.port p).Follows (t.port p)
  programs : t.programs.length ≤ max 8 s.programs.length
  directory : t.directory.length ≤ max 128 s.directory.length
  entries : t.entries.length ≤ max 8 s.entries.length
  gate : GateKept s → GateKept t
  cal : t.cal = s.cal
  pages : t.pages = s.pages
  settings : t.settings = s.settings

/-- What the operations of a command leave as it was, or keep. -/
abbrev Follows : State → State → Prop := FollowsBy Plate.Follows

/-- What the operations of the follow-up of an event leave as it was, or keep. -/
abbrev Settles : State → State → Prop := FollowsBy Plate.Settled

section
variable {R : Plate → Plate → Prop}

theorem FollowsBy.transBy (htrans : ∀ a b c, R a b → R b c → R a c) {s t u : State} (h : FollowsBy R s t)
    (k : FollowsBy R t u) : FollowsBy R s u where
  stage w := k.stage (h.stage w)
  plates := h.plates.trans htrans k.plates
  ports p := (h.ports p).trans (k.ports p)
  programs := by have := h.programs; have := k.programs; omega
  directory := by have := h.directory; have := k.directory; omega
  entries := by have := h.entries; have := k.entries; omega
  gate w := k.gate (h.gate w)
  cal := k.cal.trans h.cal
  pages := k.pages.trans h.pages
  settings := k.settings.trans h.settings

/-- An operation that leaves the plates and the ports alone, and neither the tables nor the gate open. -/
theorem FollowsBy.sameBy (hrefl : ∀ a, R a a) {s t : State} (hplates : t.plates = s.plates)
    (hoccupant : t.occupant = s.occupant) (hindicator : t.indicator = s.indicator)
    (hports : ∀ p, (s.port p).Follows (t.port p)) (hprograms : t.programs.length ≤ max 8 s.programs.length)
    (hdirectory : t.directory.length ≤ max 128 s.directory.length) (hentries : t.entries.length ≤ max 8 s.entries.length)
    (hgate : GateKept s → GateKept t) (hcal : t.cal = s.cal) (hpages : t.pages = s.pages)
    (hsettings : t.settings = s.settings) : FollowsBy R s t where
  stage w := by rw [StageTrue, hoccupant, hindicator, hplates]; exact w
  plates := .of_plates hrefl hplates
  ports := hports
  programs := hprograms
  directory := hdirectory
  entries := hentries
  gate := hgate
  cal := hcal
  pages := hpages
  settings := hsettings

theorem FollowsBy.setPlateBy (hrefl : ∀ a, R a a) {s : State} {i : Nat} {a b : Plate} (ha : s.plate i = some a)
    (h : R a b) : FollowsBy R s (s.setPlate i (some b)) where
  stage _ := ⟨rfl, rfl⟩
  plates := .setPlate hrefl ha h
  ports p := by simpa using .refl _
  programs := by simp
  directory := by simp
  entries := by simp
  gate w := by simpa [GateKept] using w
  cal := by simp
  pages := by simp
  settings := by simp

end

theorem Follows.trans {s t u : State} (h : Follows s t) (k : Follows t u) : Follows s u :=
  FollowsBy.transBy (fun _ _ _ => .trans) h k

theorem Settles.trans {s t u : State} (h : Settles s t) (k : Settles t u) : Settles s u :=
  FollowsBy.transBy (fun _ _ _ => .trans) h k

/-- What settles, follows. -/
theorem Follows.of {s t : State} (h : Settles s t) : Follows s t :=
  { h with plates := h.plates.imp (fun _ _ => Plate.Settled.toFollows) }

theorem Follows.setPlate {s : State} {i : Nat} {a b : Plate} (ha : s.plate i = some a) (h : a.Follows b) :
    Follows s (s.setPlate i (some b)) :=
  FollowsBy.setPlateBy .refl ha h

theorem Settles.setPlate {s : State} {i : Nat} {a b : Plate} (ha : s.plate i = some a) (h : a.Settled b) :
    Settles s (s.setPlate i (some b)) :=
  FollowsBy.setPlateBy .refl ha h

/-- An operation that leaves plates, ports, pages and settings alone, lets no table grow and leaves the gate as it was. -/
theorem Settles.same {s t : State} (hplates : t.plates = s.plates) (hoccupant : t.occupant = s.occupant)
    (hindicator : t.indicator = s.indicator) (hports : t.ports = s.ports)
    (hprograms : t.programs.length ≤ s.programs.length) (hdirectory : t.directory.length ≤ s.directory.length)
    (hentries : t.entries.length ≤ s.entries.length) (hlamp : t.lamp = s.lamp) (hunit : t.unit.state = s.unit.state)
    (hcal : t.cal = s.cal) (hpages : t.pages = s.pages) (hsettings : t.settings = s.settings) : Settles s t :=
  FollowsBy.sameBy .refl hplates hoccupant hindicator (fun p => by rw [State.port_congr hports]; exact .refl _)
    (by omega) (by omega) (by omega) (fun w => by rw [GateKept, hlamp, hunit]; exact w) hcal hpages hsettings

theorem Settles.refl (s : State) : Settles s s := by apply Settles.same <;> simp

theorem Settles.setPort {s : State} {p : Port} {q : PortState} (h : (s.port p).Follows q) :
    Settles s (s.setPort p q) := by
  refine FollowsBy.sameBy .refl (by simp) (by simp) (by simp) (fun r => ?_) (by simp) (by simp) (by simp)
    (fun w => by simpa [GateKept] using w) (by simp) (by simp) (by simp)
  rw [State.port_setPort]
  split
  · rename_i e; rw [e]; exact h
  · exact .refl _

/-! ### The changes that `Follows` does not allow -/

/-- The changes of RESET, LOCK, LOSS_OF_LOCK, PLATE_ENTER, RETIRE_PLATE and WRITE_SETTINGS, the lines stored by LINE and
LINE_EVENT, and the calibration record replaced at a LINE. -/
inductive Alters (s : State) : Instr → State → Prop
  | reset : Alters s .reset { State.reset with pending := s.pending }
  | comesUp (p : Port) : Alters s (.lock p) (s.setPort p (s.port p).comeUp)
  | goesDown (p : Port) : Alters s (.lossOfLock p) (s.setPort p (s.port p).goDown)
  | enters {p : Port} {slot : Nat} {pl : Plate} (hfree : s.plate slot = none) (hpl : pl.withinBudget) :
    Alters s (.plateEnter p) (s.setPlate slot (some pl))
  | retires (p : Port) (slot : Nat) : Alters s (.retirePlate p) (s.setPlate slot none)
  | writes (p : Port) (record : Settings) : Alters s (.writeSettings p) { s with settings := record }
  | stores (k : BitVec 8) (n l : BitVec 16) (v : List Sample) (x : BitVec 16) (chain : List Nat) (w y : Nat)
    (codes : List (BitVec 16)) : Alters s (.line k n l v x) { s with pages := Memory.writeLine s.pages chain w y codes }
  | calibrates (k : BitVec 8) (n l : BitVec 16) (v : List Sample) (x : BitVec 16) (c : CalContext) :
    Alters s (.line k n l v x) { s with cal := calibratedRecord s.cal.generation c }
  | merges (chain : List Nat) (w y : Nat) (codes : List (BitVec 16)) :
    Alters s .lineEvent { s with pages := Memory.writeLine s.pages chain w y codes }

/-- A command leads from `s` to `t` by operations that `Follows` covers and by its own alterations. -/
inductive Runs (c : Instr) : State → State → Prop
  | follows {s t : State} (h : Follows s t) : Runs c s t
  | alters {s t : State} (h : Alters s c t) : Runs c s t
  | trans {s t u : State} (h : Runs c s t) (k : Runs c t u) : Runs c s u

/-- What a preorder on states allows of operations and of the alterations of `c`, it allows of `c`. -/
theorem Runs.lift {c : Instr} {R : State → State → Prop} (htrans : ∀ s t u, R s t → R t u → R s u)
    (hfollows : ∀ s t, Follows s t → R s t) (halters : ∀ s t, Alters s c t → R s t) {s t : State} (h : Runs c s t) :
    R s t := by
  induction h with
  | follows h => exact hfollows _ _ h
  | alters h => exact halters _ _ h
  | trans _ _ ih ik => exact htrans _ _ _ ih ik

end Sys2Proof.Machine
end

section
/-! The operations that settle: each leaves budgets, spent doses, links, pages and settings as they were and keeps every
table within its size (`Settles`). -/

namespace Sys2Proof.Machine

/-! ### Plate records -/

theorem Plate.Settled.moved (pl : Plate) (st : PlateState) (n : Option PendingNotice) :
    pl.Settled { pl with state := st, noticePending := n } :=
  ⟨⟨rfl, rfl, rfl, rfl, rfl, Nat.le_refl _, Nat.le_refl _, id⟩, rfl, rfl, rfl, rfl⟩

variable (s : State)

theorem Settles.modPlate (i : Nat) (f : Plate → Plate) (hf : ∀ pl : Plate, pl.Settled (f pl)) :
    Settles s (s.modPlate i f) := by
  unfold State.modPlate
  split
  · exact .setPlate ‹_› (hf _)
  · exact .refl _

theorem Settles.ite {c : Prop} [Decidable c] {s t u : State} (h : c → Settles s t) (k : ¬ c → Settles s u) :
    Settles s (if c then t else u) := by
  split
  · exact h ‹_›
  · exact k ‹_›

theorem Follows.ite {c : Prop} [Decidable c] {s t u : State} (h : c → Follows s t) (k : ¬ c → Follows s u) :
    Follows s (if c then t else u) := by
  split
  · exact h ‹_›
  · exact k ‹_›

/-! ### Ports and lists -/

theorem Settles.place (p : Port) (e : OutEntry) : Settles s (s.place p e) := .setPort (.offer _ _)

theorem Settles.reply (p : Port) (m : Message) (st : Status) (b : Body) : Settles s (s.reply p m st b) := .place _ _ _

theorem Settles.fresh : Settles s s.fresh := by apply Settles.same <;> simp

theorem Settles.emit (e : Emission) : Settles s (s.emit e) := by apply Settles.same <;> simp

theorem Settles.beginSending (p : Port) : Settles s (s.beginSending p) := .setPort (.beginSending _)

theorem Settles.dropEntries (p : Port) : Settles s (s.dropEntries p) := by
  apply Settles.same <;> simp [List.length_filter_le]

theorem Settles.expireEntry (id : TileId) : Settles s (s.expireEntry id) := by
  apply Settles.same <;> simp [State.expireEntry, List.length_filter_le]

theorem Settles.removeEntry (p : Port) (id : TileId) : Settles s (s.removeEntry p id) := by
  apply Settles.same <;> simp [List.length_filter_le]

theorem Settles.turnEntry (id : TileId) (st : EntryState) : Settles s (s.turnEntry id st) := by
  apply Settles.same <;> simp [State.turnEntry]

theorem Settles.returnPages (c : List Nat) : Settles s (s.returnPages c) := by apply Settles.same <;> simp

theorem Settles.modTile (id : TileId) (f : TileEntry → TileEntry) : Settles s (s.modTile id f) := by
  apply Settles.same <;> simp

theorem Settles.removeTile (id : TileId) : Settles s (s.removeTile id) := by
  apply Settles.same <;> simp [List.length_filter_le]

theorem Settles.modProgram (tag : Nat) (f : Program → Program) : Settles s (s.modProgram tag f) := by
  apply Settles.same <;> simp

theorem Settles.dropProgram (tag : Nat) : Settles s (s.dropProgram tag) := by
  apply Settles.same <;> simp [State.dropProgram, State.removeFailedTiles, List.length_filter_le]

theorem Settles.dropFinished (p : Port) : Settles s (s.dropFinished p) := by
  unfold State.dropFinished
  generalize (s.programs.filter _).map (·.tag) = tags
  induction tags generalizing s with
  | nil => exact .refl _
  | cons tag tags ih => exact (Settles.dropProgram s tag).trans (ih _)

/-! ### Notices -/

theorem Settles.issueNotice (i : Nat) (n : PendingNotice) : Settles s (s.issueNotice i n) := by
  unfold State.issueNotice
  split
  · exact .refl _
  · split
    · exact .place _ _ _
    · exact .modPlate _ _ _ (fun pl => .moved pl pl.state _)

theorem Settles.issuePending (i : Nat) : Settles s (s.issuePending i) := by
  unfold State.issuePending
  split
  · exact .refl _
  · split
    · exact .refl _
    · exact (Settles.modPlate _ _ _ (fun pl => .moved pl pl.state _)).trans (.place _ _ _)

theorem Settles.withdrawCall (i : Nat) : Settles s (s.withdrawCall i) := by
  unfold State.withdrawCall
  split
  · exact .refl _
  · rename_i pl hp
    split
    · have h : Settles s (s.setPlate i (some { pl with state := .racked, noticePending := none })) :=
        .setPlate hp (.moved pl _ _)
      dsimp only
      split
      · exact h
      · exact h.trans (.place _ _ _)
    · exact .refl _

theorem Settles.deliverDone (tag : Nat) : Settles s (s.deliverDone tag) := by
  unfold State.deliverDone
  split
  · exact .refl _
  · split
    · exact (Settles.place _ _ _).trans (.dropProgram _ _)
    · exact .refl _

theorem Settles.finishProgram (tag : Nat) : Settles s (s.finishProgram tag) :=
  (Settles.modProgram _ _ _).trans (.deliverDone _ _)

theorem Settles.releaseProgram (tag : Nat) : Settles s (s.releaseProgram tag) := by
  unfold State.releaseProgram
  split
  · exact .refl _
  · split
    · exact .modProgram _ _ _
    · exact (Settles.setPlate ‹_› (.release _ _)).trans (.modProgram _ _ _)

theorem Settles.fixOutcome (tag : Nat) (o : ProgramOutcome) : Settles s (s.fixOutcome tag o) := .modProgram _ _ _

theorem Settles.headWaits (tag : Nat) (st : ProgramState) : Settles s (s.headWaits tag st) := .modProgram _ _ _

/-! ### Reads -/

theorem Settles.sendTileReady (id : TileId) (p : Port) : Settles s (s.sendTileReady id p) := by
  unfold State.sendTileReady
  split
  · exact .refl _
  · split
    · exact .place _ _ _
    · exact .refl _

theorem Settles.entryTurnsReady (id : TileId) : Settles s (s.entryTurnsReady id) := by
  unfold State.entryTurnsReady
  split
  · split
    · exact (Settles.turnEntry _ _ _).trans (.sendTileReady _ _ _)
    · exact .refl _
  · exact .refl _

theorem Settles.releaseReader (id : TileId) : Settles s (s.releaseReader id) :=
  (Settles.modTile _ _ _).trans (.entryTurnsReady _ _)

theorem Settles.freeTile (t : TileEntry) : Settles s (s.freeTile t) := (Settles.returnPages _ _).trans (.removeTile _ _)

theorem PortState.Follows.attachClose (q : PortState) (m : OutMessage) : q.Follows (q.attachClose m) := .modStream _ _

theorem PortState.Follows.pushRead {q : PortState} (h : q.canTake = true) (r : Option Read) (e : OutEntry) :
    q.Follows ({ q with read := r }.push e) :=
  (PortState.Follows.setRead q r).trans (.push (q := { q with read := r }) ((PortState.canTake_iff q).1 h).2 e)

theorem Settles.closeDelivered (p : Port) (r : Read) (t : TileEntry) : Settles s (s.closeDelivered p r t) := by
  unfold State.closeDelivered
  dsimp only
  generalize (if r.endLine = t.height then CloseOutcome.complete else CloseOutcome.part) = outcome
  have h : ∀ m, Settles s (s.setPort p { (s.port p).attachClose m with read := none }) :=
    fun m => .setPort ((PortState.Follows.attachClose _ m).trans (.setRead _ _))
  split
  · exact (h _).trans ((Settles.modTile _ _ _).trans (.freeTile _ _))
  · exact (h _).trans (.releaseReader _ _)

theorem Settles.endReadSilently (p : Port) : Settles s (s.endReadSilently p) := by
  unfold State.endReadSilently
  split
  · exact .refl _
  · have h : Settles s (s.setPort p { (s.port p).removeStream with read := none }) :=
      .setPort ((PortState.Follows.removeStream _).trans (.setRead _ _))
    dsimp only
    split
    · split
      · exact h.trans (.releaseReader _ _)
      · exact h
    · exact h

theorem Settles.judgeBurst (p : Port) : Settles s (s.judgeBurst p) := by
  unfold State.judgeBurst
  split
  · exact .refl _
  · dsimp only
    split
    · exact .setPort ((PortState.Follows.setRead _ _).trans (.modStream _ _))
    · split
      · exact .setPort (.pushRead ‹_› _ _)
      · exact .refl _

theorem Settles.judgeTileBurst (id : TileId) : Settles s (s.judgeTileBurst id) := by
  unfold State.judgeTileBurst
  repeat' split
  · exact .judgeBurst _ _
  all_goals exact .refl _

theorem Settles.failDrain (t : TileEntry) : Settles s (s.failDrain t) := by
  unfold State.failDrain
  split
  · exact .refl _
  · split
    · exact .refl _
    · dsimp only
      split
      · exact .setPort ((PortState.Follows.attachClose _ _).trans (.setRead _ _))
      · split
        · exact .setPort (.pushRead ‹_› _ _)
        · exact .setPort (.setRead _ _)

theorem Settles.placeWaitingClose {p : Port} (h : (s.port p).canTake = true) : Settles s (s.placeWaitingClose p) := by
  unfold State.placeWaitingClose
  repeat' split
  · exact .refl _
  · exact .refl _
  · exact .setPort (.pushRead h _ _)

/-! ### Claims -/

theorem Settles.serveClaim {p : Port} (h : (s.port p).canTake = true) (c : Claim) : Settles s (s.serveClaim p c) := by
  cases c with
  | plateNotice i => exact .issuePending _ _
  | programDone tag => exact .deliverDone _ _
  | failedClose => exact .placeWaitingClose _ h
  | burst => exact .judgeBurst _ _

theorem Settles.serveUpTo (p : Port) (k : Nat) : Settles s (s.serveUpTo p k) := by
  induction k generalizing s with
  | zero => exact .refl _
  | succ k ih =>
    unfold State.serveUpTo
    split
    · split
      · exact (Settles.serveClaim _ ‹_› _).trans (ih _)
      · exact .refl _
    · exact .refl _

theorem Settles.serveClaims (p : Port) : Settles s (s.serveClaims p) := .serveUpTo _ _ _

/-! ### The exposure unit -/

/-- A gate that is kept is shut while the unit is IDLE. -/
theorem GateKept.shut {s : State} (h : GateKept s) (hu : s.unit.state = .idle) : s.lamp.gateOpen = false := by
  cases hg : s.lamp.gateOpen
  · rfl
  · rw [h hg] at hu; cases hu

/-- A change of the unit and the lamp alone that leaves the gate kept. -/
theorem Settles.ofUnit {s t : State} (h : t = { s with unit := t.unit, lamp := t.lamp, sent := t.sent })
    (hgate : GateKept s → GateKept t) : Settles s t := by
  refine FollowsBy.sameBy .refl ?_ ?_ ?_ (fun p => ?_) ?_ ?_ ?_ hgate ?_ ?_ ?_
  all_goals rw [h]
  case refine_4 => exact .refl _
  all_goals simp

theorem Settles.unitIdle : Settles s s.unitIdle := .ofUnit rfl (fun _ h => by cases h)

theorem Settles.stopTake : Settles s s.stopTake := .ofUnit rfl (fun _ h => by cases h)

theorem Settles.modContext (f : ExposureContext → ExposureContext) : Settles s (s.modContext f) := .ofUnit rfl id

theorem Settles.withTimer (t : UnitTimer) : Settles s (s.withTimer t) := .ofUnit rfl id

theorem Settles.resendMove (c : ExposureContext) : Settles s (s.resendMove c) := .ofUnit rfl id

theorem Settles.startMove {s : State} (hu : s.unit.state = .idle) (c : ExposureContext) : Settles s (s.startMove c) := by
  refine .ofUnit rfl (fun w h => ?_)
  have hshut := w.shut hu
  rw [show s.lamp.gateOpen = true from h] at hshut
  cases hshut

theorem Settles.startTake : Settles s s.startTake := by
  unfold State.startTake
  repeat' split
  · exact .refl _
  · exact .refl _
  all_goals exact .ofUnit rfl (fun _ _ => rfl)

theorem Settles.abandon : Settles s s.abandon := by
  unfold State.abandon
  split
  · exact .unitIdle _
  · exact (Settles.stopTake _).trans (.unitIdle _)
  · split
    · exact .unitIdle _
    · exact .unitIdle _
    · exact .modContext _ _
    · exact .modContext _ _
  · exact .refl _

theorem Settles.registration (r : Option Registration) : Settles s { s with registration := r } := by
  apply Settles.same <;> simp

theorem Settles.regPhase (ph : RegPhase) : Settles s (s.regPhase ph) := .registration _ _

/-! ### The tile in hand -/

theorem Settles.handTile : Settles s s.handTile := by
  unfold State.handTile
  repeat' split
  case isTrue h => exact (Settles.startMove h.2 _).trans (.modProgram _ _ _)
  all_goals exact .refl _

theorem Settles.handMargin : Settles s s.handMargin := by
  unfold State.handMargin
  repeat' split
  case isTrue h =>
    refine (Settles.registration s _).trans (.startMove ?_ _)
    exact h.2
  all_goals exact .refl _

theorem Settles.offerUnit : Settles s s.offerUnit := (Settles.handTile _).trans (.handMargin _)

theorem Settles.allocWaiting (r : Option AllocRequest) : Settles s { s with allocWaiting := r } := by
  apply Settles.same <;> simp

theorem Settles.requestAllocation : Settles s s.requestAllocation := by
  unfold State.requestAllocation
  repeat' split
  case isTrue => exact .allocWaiting _ _
  all_goals exact .refl _

theorem Settles.grant {r : AllocRequest} (h : s.canGrant r = true) : Settles s (s.grant r) := by
  have hdir : s.directory.length < 128 := by simp [State.canGrant] at h; exact h.2
  refine FollowsBy.sameBy .refl rfl rfl rfl (fun p => .refl _) (by simp) ?_ (by simp) id rfl rfl rfl
  simp only [State.grant, List.length_append, List.length_singleton]
  omega

theorem Settles.grantWaiting : Settles s s.grantWaiting := by
  unfold State.grantWaiting
  repeat' split
  · exact .refl _
  · exact (Settles.grant _ ‹_›).trans (.trans (.modProgram _ _ _) (.handTile _))
  · exact .refl _

theorem Settles.tryAllocation : Settles s s.tryAllocation := (Settles.requestAllocation _).trans (.grantWaiting _)

theorem Settles.failTile (id : TileId) : Settles s (s.failTile id) := by
  unfold State.failTile
  split
  · exact .refl _
  · exact (Settles.returnPages _ _).trans (.trans (.modTile _ _ _) (.trans (.failDrain _ _) (.turnEntry _ _ _)))

theorem Settles.mergeQueue (q : List TileId) (c : Option MergeContext) :
    Settles s { s with mergeQueue := q, mergeContext := c } := by
  apply Settles.same <;> simp

theorem Settles.beginMerge (id : TileId) : Settles s (s.beginMerge id) := by
  unfold State.beginMerge
  repeat' split
  · exact .refl _
  · exact .refl _
  · exact (Settles.modTile _ _ _).trans (.mergeQueue _ _ _)

theorem Settles.joinMerge (id : TileId) (d : Nat) : Settles s (s.joinMerge id d) := by
  unfold State.joinMerge
  have h : Settles s { s.modTile id (fun t =>
      { t with state := .mergeWait, stats := t.stats.map (fun x => { x with dose := d }) }) with
      mergeQueue := s.mergeQueue ++ [id] } := (Settles.modTile _ _ _).trans (.mergeQueue _ _ _)
  dsimp only
  split
  · exact h.trans (.beginMerge _ _)
  · exact h

theorem Settles.endCapture (tag : Nat) (k : Option Nat) : Settles s (s.endCapture tag k) := by
  unfold State.endCapture
  dsimp only
  have h : Settles s ((s.releaseProgram tag).modProgram tag (fun g => { g with captureStep := none, failingTile := k })) :=
    (Settles.releaseProgram _ _).trans (.modProgram _ _ _)
  repeat' split
  · exact h
  · exact h.trans (.modProgram _ _ _)
  · exact h.trans (.finishProgram _ _)

theorem Settles.captured (id : TileId) (d : Nat) : Settles s (s.captured id d) := by
  unfold State.captured
  dsimp only
  have h : Settles s ((s.joinMerge id d).modProgram id.tag (fun g =>
      { g with tilesInMerge := g.tilesInMerge + 1, nextTile := id.index + 1 })) :=
    (Settles.joinMerge _ _ _).trans (.modProgram _ _ _)
  repeat' split
  · exact h
  · exact h.trans (.endCapture _ _ _)
  · exact h.trans (.endCapture _ _ _)
  · exact h.trans (.modProgram _ _ _)
  · exact h.trans (.trans (.fixOutcome _ _ _) (.endCapture _ _ _))

theorem Settles.captureFailed (id : TileId) (o : ProgramOutcome) : Settles s (s.captureFailed id o) :=
  (Settles.failTile _ _).trans (.trans (.fixOutcome _ _ _) (.endCapture _ _ _))

theorem Settles.giveUpTile (g : Program) (b : Bool) : Settles s (s.giveUpTile g b) := by
  unfold State.giveUpTile
  dsimp only
  split
  · exact (Settles.allocWaiting _ _).trans (.endCapture _ _ _)
  · exact (Settles.failTile _ _).trans (.endCapture _ _ _)
  · split
    · exact .refl _
    · split
      · exact (Settles.abandon _).trans (.trans (.failTile _ _) (.endCapture _ _ _))
      · exact (Settles.failTile _ _).trans (.endCapture _ _ _)
  · exact .refl _

theorem Settles.losePlate (i : Nat) : Settles s (s.losePlate i) := by
  unfold State.losePlate
  repeat' split
  · exact .refl _
  · exact (Settles.fixOutcome _ _ _).trans (.giveUpTile _ _ _)
  · exact .refl _

/-! ### The staging unit -/

theorem Settles.callPlate (i tag : Nat) : Settles s (s.callPlate i tag) :=
  (Settles.modPlate _ _ _ (fun pl => .moved pl _ pl.noticePending)).trans (.issueNotice _ _ _)

theorem Settles.returnPlate (i w : Nat) : Settles s (s.returnPlate i w) :=
  (Settles.modPlate _ _ _ (fun pl => .moved pl _ pl.noticePending)).trans (.issueNotice _ _ _)

theorem Settles.endAtStart (tag : Nat) (o : ProgramOutcome) (k : Option Nat) : Settles s (s.endAtStart tag o k) :=
  (Settles.modProgram _ _ _).trans (.trans (.releaseProgram _ _) (.finishProgram _ _))

theorem Settles.startHead {g : Program} {pl : Plate} (hp : s.plate g.content.slot = some pl) :
    Settles s (s.startHead g pl).2 := by
  unfold State.startHead
  split
  · exact .endAtStart _ _ _ _
  · split
    · exact .endAtStart _ _ _ _
    · split
      · exact .endAtStart _ _ _ _
      · split
        · exact .endAtStart _ _ _ _
        · exact (Settles.setPlate hp (.reestimate ‹_›)).trans (.trans (.modProgram _ _ _) (.tryAllocation _))

theorem Settles.examineOffStage (g : Program) (pl : Plate) : Settles s (s.examineOffStage g pl) := by
  unfold State.examineOffStage
  split
  · split
    · exact (Settles.callPlate _ _ _).trans (.headWaits _ _ _)
    · exact .headWaits _ _ _
  · split
    · exact (Settles.returnPlate _ _ _).trans (.headWaits _ _ _)
    · exact .headWaits _ _ _

theorem Settles.examineUpTo (k : Nat) : Settles s (s.examineUpTo k) := by
  induction k generalizing s with
  | zero => exact .refl _
  | succ k ih =>
    unfold State.examineUpTo
    split
    · exact .refl _
    · split
      · exact .refl _
      · split
        · exact .refl _
        · rename_i g _ _ _ pl hp
          split
          · dsimp only
            split
            · exact (Settles.startHead s hp).trans (ih _)
            · exact .startHead s hp
          · exact .headWaits _ _ _
          · exact .headWaits _ _ _
          · exact .headWaits _ _ _
          · exact .examineOffStage _ _ _
          · exact .examineOffStage _ _ _

theorem Settles.examineOnChange (s0 : State) : Settles s (s0.examineOnChange s) := by
  unfold State.examineOnChange
  split
  · exact .refl _
  · exact .examineUpTo _ _

/-- The follow-up of an event settles (02 R32, 07 R154, 04 R80). -/
theorem Settles.settle (s0 : State) : Settles s (s0.settle s) :=
  (Settles.examineOnChange _ _).trans (.trans (.tryAllocation _) (.offerUnit _))

theorem Settles.serveFreed (s0 : State) (p : Port) : Settles s (s0.serveFreed s p) :=
  (Settles.serveClaims _ _).trans (.trans (.beginSending _ _) (.settle _ _))

theorem Settles.serveAlone (p : Port) (sel : Claim → Bool) : Settles s (s.serveAlone p sel) := by
  unfold State.serveAlone
  repeat' split
  · exact (Settles.serveClaim _ ‹_› _).trans (.settle _ _)
  all_goals exact .refl _

theorem Settles.sendRegDone (r : Registration) (pl : Plate) (o : RegOutcome) (f : Option Nat) (n : Nat) :
    Settles s (s.sendRegDone r pl o f n) := by
  unfold State.sendRegDone
  dsimp only
  repeat' split
  · exact .place _ _ _
  · exact (Settles.place _ _ _).trans (.place _ _ _)
  · exact .place _ _ _

theorem Settles.abortRegistration (r : Registration) (pl : Plate) : Settles s (s.abortRegistration r pl) := by
  unfold State.abortRegistration
  dsimp only
  have hend : ∀ u : State, Settles u ({ u with registration := none }.sendRegDone r pl .aborted none 0) :=
    fun u => (Settles.registration u none).trans (.sendRegDone _ _ _ _ _ _)
  cases r.phase <;> dsimp only
  case waitUnit => exact hend _
  case measuring => exact hend _
  all_goals
    split
    · exact (Settles.abandon _).trans (hend _)
    · exact hend _

theorem Settles.abortFor (i : Nat) (pl : Plate) : Settles s (s.abortFor i pl) := by
  unfold State.abortFor
  repeat' split
  · exact .abortRegistration _ _ _
  all_goals exact .refl _

/-! ### The calibration unit -/

theorem Settles.calContext (k : Option CalContext) : Settles s { s with calContext := k } := by
  apply Settles.same <;> simp

theorem Settles.endCalibration (k : CalContext) (o : CalOutcome) (f : CalFigures) :
    Settles s (s.endCalibration k o f) :=
  (Settles.calContext _ _).trans (.place _ _ _)

theorem Settles.calibrationFails (o : CalOutcome) : Settles s (s.calibrationFails o) := by
  unfold State.calibrationFails
  split
  · exact .endCalibration _ _ _ _
  · exact .refl _

theorem Settles.interruptCalibration : Settles s s.interruptCalibration := by
  unfold State.interruptCalibration
  dsimp only
  repeat' split
  · exact .refl _
  · exact (Settles.abandon _).trans (.endCalibration _ _ _ _)
  all_goals exact .endCalibration _ _ _ _

theorem Settles.startLight (k : CalContext) : Settles s (s.startLight k) :=
  (Settles.calContext s (some k)).trans
    (.trans (t := { s with calContext := some k, unit := { s.unit with context := some (calContextOf .calLight k) } })
      (.ofUnit rfl id) (.startTake _))

theorem Settles.darkFrameDone (k : CalContext) : Settles s (s.darkFrameDone k) := by
  unfold State.darkFrameDone
  split
  · exact .endCalibration _ _ _ _
  · exact .startLight _ _

end Sys2Proof.Machine
end

section
/-! What every command runs (`Runs`): operations that follow, and the alterations that are the command's own. -/

namespace Sys2Proof.Machine

/-! ### Charges and registrations -/

variable (s : State)

theorem Follows.refl : Follows s s := .of (.refl s)

theorem Follows.charge (i : Nat) (f : Plate → ChargeAnswer × Plate) (hf : ∀ pl : Plate, pl.Follows (f pl).2) :
    Follows s (s.charge i f).2 := by
  unfold State.charge
  split
  · exact .refl _
  · rename_i pl hp
    split
    · rename_i pl' e
      have h := hf pl
      rw [e] at h
      exact .setPlate hp h
    · exact .refl _

theorem Follows.chargeTile (tag cost : Nat) (b : Bool) : Follows s (s.chargeTile tag cost b).2 := by
  unfold State.chargeTile
  split
  · exact .refl _
  · split
    · exact .refl _
    · rename_i g _ _
      have h := Follows.charge s g.content.slot
        (fun pl => if b then pl.unreservedCharge .staged cost else pl.programCharge tag cost)
        (fun pl => by cases b <;> [exact .programCharge _ _ _; exact .unreservedCharge _ _ _])
      split
      · rename_i e
        rw [e] at h
        exact h.trans (.of (.modProgram _ _ _))
      · exact h

theorem Follows.chargeMargin (cost : Nat) : Follows s (s.chargeMargin cost).2 := by
  unfold State.chargeMargin
  split
  · exact .refl _
  · rename_i r _
    have h := Follows.charge s r.slot (fun pl => pl.unreservedCharge .registering cost) (fun _ => .unreservedCharge _ _ _)
    split
    · rename_i e
      rw [e] at h
      exact h.trans (.of (.registration _ _))
    · exact h

/-- A record that differs in its state, its keep set, its base_fog, its margin result, its note and its notice alone. -/
theorem Plate.Follows.marked (pl : Plate) (st : PlateState) (k : PortSet) (f : Option Nat) (r : MarginResult)
    (note : List Byte) (n : Option PendingNotice) : pl.Follows
      { pl with state := st, keeps := k, baseFog := f, marginResult := r, note := note, noticePending := n } :=
  ⟨rfl, rfl, rfl, rfl, rfl, Nat.le_refl _, Nat.le_refl _, id⟩

theorem Follows.endRegistration (r : Registration) (o : RegOutcome) (f : Option Nat) (n : Nat) :
    Follows s (s.endRegistration r o f n) := by
  unfold State.endRegistration
  have hreg : Follows s { s with registration := none } := .of (.registration s none)
  split
  · exact hreg
  · rename_i pl hp
    exact hreg.trans (.trans (.setPlate (s := { s with registration := none }) hp
      (.marked pl .staged pl.keeps f _ pl.note pl.noticePending)) (.of (.sendRegDone _ _ _ _ _ _)))

theorem Follows.marginEnds (o : RegOutcome) : Follows s (s.marginEnds o) := by
  unfold State.marginEnds
  split
  · exact .endRegistration _ _ _ _ _
  · exact .refl _

theorem Follows.startRegistration (i : Nat) (q : Option Port) : Follows s (s.startRegistration i q) := by
  unfold State.startRegistration
  dsimp only
  split
  · exact .endRegistration _ _ _ _ _
  · split
    · exact .of ((Settles.registration _ _).trans (.handMargin _))
    · exact .endRegistration _ _ _ _ _

/-! ### The exposure unit's reports -/

theorem Follows.moveFails (c : ExposureContext) : Follows s (s.moveFails c) := by
  have h : Follows s s.unitIdle := .of (.unitIdle s)
  unfold State.moveFails
  split
  · exact h.trans (.of (.captureFailed _ _ _))
  · exact h.trans (.marginEnds _ _)
  all_goals exact h.trans (.of (.calibrationFails _ _))

theorem Follows.sensorFails (c : ExposureContext) : Follows s (s.sensorFails c) := by
  have h : Follows s s.unitIdle := .of (.unitIdle s)
  unfold State.sensorFails
  split
  · exact h.trans (.of (.captureFailed _ _ _))
  · exact h.trans (.marginEnds _ _)
  all_goals exact h.trans (.of (.calibrationFails _ _))

theorem Follows.afterTileCharge (id : TileId) (cost : Nat) (a : ChargeAnswer) :
    Follows s (s.afterTileCharge id cost a) := by
  cases a with
  | granted => exact .of ((Settles.modContext _ _).trans (.startTake _))
  | doseLimit => exact .of ((Settles.unitIdle _).trans (.captureFailed _ _ _))
  | notOnStage => exact .of ((Settles.unitIdle _).trans (.captureFailed _ _ _))

theorem Follows.afterMarginCharge (a : ChargeAnswer) : Follows s (s.afterMarginCharge a) := by
  cases a with
  | granted => exact .of ((Settles.regPhase _ _).trans (.startTake _))
  | doseLimit => exact (Follows.of (.unitIdle _)).trans (.marginEnds _ _)
  | notOnStage => exact .of (.unitIdle _)

theorem Follows.beginExposure : Follows s s.beginExposure := by
  unfold State.beginExposure
  split
  · exact .refl _
  · split
    · exact .refl _
    · split
      · exact (Follows.chargeTile _ _ _ _).trans (.afterTileCharge _ _ _ _)
      · exact (Follows.chargeMargin _ _).trans (.afterMarginCharge _ _)
      all_goals exact .of (.startTake _)

theorem Settles.countRetake : Settles s s.countRetake := .modContext _ _

theorem Follows.retake (c : ExposureContext) (e : Exposure) : Follows s (s.retake c e) := by
  unfold State.retake
  dsimp only
  split
  · exact (Follows.chargeTile _ _ _ _).trans
      (.trans (.ite (fun _ => .of (.countRetake _)) (fun _ => .refl _)) (.afterTileCharge _ _ _ _))
  · exact (Follows.chargeMargin _ _).trans
      (.trans (.ite (fun _ => .of ((Settles.countRetake _).trans (.registration _ _))) (fun _ => .refl _))
        (.afterMarginCharge _ _))
  all_goals exact .of ((Settles.countRetake _).trans (.startTake _))

theorem Follows.takeFaulty : Follows s s.takeFaulty := by
  unfold State.takeFaulty
  repeat' split
  · exact .refl _
  · exact .of (.unitIdle _)
  · exact .retake _ _ _
  · exact .refl _
  · exact .sensorFails _ _

/-! ### Lines -/

/-- What settles, a command runs. -/
theorem Runs.of {s t : State} {c : Instr} (h : Settles s t) : Runs c s t := .follows (.of h)

section Line
variable (k : BitVec 8) (n l : BitVec 16) (v : List Sample) (x : BitVec 16) (c : ExposureContext)

theorem Runs.storeLine (y : Nat) (w : List Sample) : Runs (.line k n l v x) s (s.storeLine c y w) := by
  unfold State.storeLine
  split
  · split
    · exact .alters (.stores _ _ _ _ _ _ _ _ _)
    · exact .of (.refl _)
  · exact .of (.registration _ _)
  all_goals exact .of (.calContext _ _)

theorem Runs.lightFrameDone (cal : CalContext) : Runs (.line k n l v x) s (s.lightFrameDone cal) := by
  unfold State.lightFrameDone
  split
  · exact .of (.endCalibration _ _ _ _)
  · split
    · exact .of (.endCalibration _ _ _ _)
    · exact .trans (.alters (.calibrates _ _ _ _ _ cal)) (.of (.endCalibration _ _ _ _))

theorem Runs.workDone : Runs (.line k n l v x) s (s.workDone c) := by
  unfold State.workDone
  split
  · exact .of ((Settles.unitIdle _).trans (.captured _ _ _))
  · exact .of ((Settles.unitIdle _).trans (.regPhase _ _))
  · split
    · exact .of ((Settles.unitIdle _).trans (.darkFrameDone _ _))
    · exact .of (.unitIdle _)
  · split
    · exact .trans (.of (.unitIdle _)) (.lightFrameDone _ _ _ _ _ _ _)
    · exact .of (.unitIdle _)

theorem Runs.takeGood : Runs (.line k n l v x) s (s.takeGood c) := by
  unfold State.takeGood
  split
  · exact .follows ((Follows.of (.modContext _ _)).trans (.beginExposure _))
  · exact .workDone _ _ _ _ _ _ _

theorem Runs.takeLine (w : List Sample) : Runs (.line k n l v x) s (s.takeLine c w) := by
  unfold State.takeLine
  dsimp only
  have hstore : Runs (.line k n l v x) s (if c.disposal then s else s.storeLine c c.nextLine w) := by
    split
    · exact .of (.refl _)
    · exact .storeLine _ _ _ _ _ _ _ _ _
  generalize (if c.disposal then s else s.storeLine c c.nextLine w) = u at *
  have hnext : Runs (.line k n l v x) s { u with unit := { u.unit with
      context := some { c with nextLine := c.nextLine + 1 }, timer := .line 100 } } :=
    hstore.trans (.of (.ofUnit rfl id))
  split
  · split
    · exact hnext.trans (.of (.unitIdle _))
    · exact hnext.trans (.takeGood _ _ _ _ _ _ _)
  · exact hnext

end Line

/-! ### The merge -/

theorem Settles.offerPreview (t : TileEntry) (y : Nat) (codes : List (BitVec 16)) (p : Port) :
    Settles s (s.offerPreview t y codes p) := by
  unfold State.offerPreview
  split
  · exact .place _ _ _
  · exact .refl _

theorem Runs.lineMerged (c : MergeContext) (p : CalParams) (t : TileEntry) :
    Runs .lineEvent s (s.lineMerged c p t) := by
  unfold State.lineMerged
  dsimp only
  exact .trans (.alters (.merges t.output c.width c.nextLine (lineCodes (s.mergedLine c p t))))
    (.of ((Settles.modTile _ _ _).trans (.trans (.ite
      (fun _ => (Settles.offerPreview _ _ _ _ _).trans (.trans (.offerPreview _ _ _ _ _) (.offerPreview _ _ _ _ _)))
      (fun _ => .refl _)) (.judgeTileBurst _ _))))

theorem Settles.countCompleted (tag : Nat) : Settles s (s.countCompleted tag) := by
  unfold State.countCompleted
  dsimp only
  split
  · exact .modProgram _ _ _
  · split
    · exact (Settles.modProgram _ _ _).trans (.finishProgram _ _)
    · exact .modProgram _ _ _

theorem Settles.nextHead : Settles s s.nextHead := by
  unfold State.nextHead
  split
  · exact (Settles.mergeQueue _ _ _).trans (.beginMerge _ _)
  · exact .mergeQueue _ _ _

theorem Settles.mergeCompleted (t : TileEntry) : Settles s (s.mergeCompleted t) := by
  unfold State.mergeCompleted
  dsimp only
  exact (Settles.modTile _ _ _).trans (.trans (.returnPages _ _) (.trans (.modTile _ _ _)
    (.trans (.ite (fun _ => .turnEntry _ _ _) (fun _ => .refl _)) (.trans (.sendTileReady _ _ _)
      (.trans (.sendTileReady _ _ _) (.trans (.sendTileReady _ _ _) (.trans (.judgeTileBurst _ _)
        (.trans (.countCompleted _ _) (.nextHead _)))))))))

/-! ### Links -/

theorem Settles.taken {s : State} {p : Port} {m : Message} {rest : List Message} (h : Waits s p m rest) :
    Settles s (s.taken p rest) := by
  refine (Settles.fresh s).trans (.setPort ?_)
  rw [State.fresh_port]
  exact .of_le rfl rfl (by simp [h.2]) (Nat.le_refl _) (Nat.le_refl _)

theorem Settles.lineDelivered {p : Port} {e : StreamEntry} (h : (s.port p).lineSending = some e) (r : Read)
    (t : TileEntry) : Settles s (s.lineDelivered p e r t) := by
  unfold State.lineDelivered
  dsimp only
  exact (Settles.setPort ((PortState.Follows.lineLeaves h _).trans (.setRead _ _))).trans
    (.trans (.emit _ _) (.ite (fun _ => .closeDelivered _ _ _ _) (fun _ => .refl _)))

/-! ### Requests and posts -/

theorem Runs.plateEnter (p : Port) (m : Message) (f : EnterFields) :
    Runs (.plateEnter p) s (s.plateEnter p m f) := by
  unfold State.plateEnter State.badField
  split
  · exact .of (.reply _ _ _ _ _)
  · rename_i i hi
    have hfree : s.plate i = none := by
      obtain ⟨hlt, hnone, -⟩ := List.findIdx?_eq_some_iff_getElem.1 hi
      have hlt : i < 32 := by simpa using hlt
      rw [State.plate, Vector.getElem?_eq_getElem hlt]
      simpa using hnone
    repeat' split
    case h_4.isFalse.isFalse =>
      exact .trans (.alters (.enters hfree (by simp [Plate.withinBudget, enteredPlate, Plate.reserved])))
        (.of (.reply _ _ _ _ _))
    all_goals exact .of (.reply _ _ _ _ _)

theorem Settles.readPlate (p : Port) (m : Message) (i : Nat) : Settles s (s.readPlate p m i) := by
  unfold State.readPlate State.busyPlain
  repeat' split
  all_goals exact .reply _ _ _ _ _

theorem Follows.annotate (p : Port) (m : Message) (i : Nat) (note : List Byte) :
    Follows s (s.annotate p m i note) := by
  unfold State.annotate
  split
  · exact .of (.place _ _ _)
  · rename_i pl hp
    exact .setPlate hp (.marked pl pl.state pl.keeps pl.baseFog pl.marginResult note pl.noticePending)

theorem Follows.raiseBudget (p : Port) (m : Message) (i n : Nat) : Follows s (s.raiseBudget p m i n) := by
  unfold State.raiseBudget State.badField
  split
  · exact .of (.reply _ _ _ _ _)
  · rename_i pl hp
    split
    · rename_i hn
      have hpl : pl.Follows { pl with budget := n } :=
        ⟨rfl, rfl, rfl, rfl, rfl, Nat.le_of_lt hn.1, Nat.le_refl _, fun w => Nat.le_trans w (Nat.le_of_lt hn.1)⟩
      exact (Follows.setPlate hp hpl).trans (.of (.reply _ _ _ _ _))
    · exact .of (.reply _ _ _ _ _)

theorem Runs.retirePlate (p : Port) (m : Message) (i : Nat) : Runs (.retirePlate p) s (s.retirePlate p m i) := by
  unfold State.retirePlate
  repeat' split
  case isFalse => exact .trans (.alters (.retires p i)) (.of (.reply _ _ _ _ _))
  all_goals exact .of (.reply _ _ _ _ _)

theorem Follows.platePlaced (p : Port) (m : Message) (i : Nat) : Follows s (s.platePlaced p m i) := by
  unfold State.platePlaced
  split
  · exact .of (.place _ _ _)
  · rename_i pl hp
    split
    · exact .refl _
    · split
      · exact .of (.place _ _ _)
      · unfold State.acceptPlacement
        dsimp only
        exact (Follows.of (.setPlate hp (.moved pl _ none))).trans (.trans (.of (.interruptCalibration _))
          (.trans (.ite (fun _ => .startRegistration _ _ _) (fun _ => .refl _)) (.of (.settle _ _))))

theorem Follows.plateRemoved (p : Port) (m : Message) (i : Nat) : Follows s (s.plateRemoved p m i) := by
  unfold State.plateRemoved
  split
  · exact .of (.place _ _ _)
  · rename_i pl hp
    split
    · dsimp only
      exact (Follows.setPlate hp (.marked pl .racked PortSet.none pl.baseFog pl.marginResult pl.note none)).trans
        (.of ((Settles.ite (fun _ => (Settles.abortFor _ _ _).trans (.losePlate _ _)) (fun _ => .refl _)).trans
          (.settle _ _)))
    · exact .of (.place _ _ _)

theorem Follows.keep (p : Port) (m : Message) (i : Nat) : Follows s (s.keep p m i) := by
  unfold State.keep
  split
  · exact .of (.reply _ _ _ _ _)
  · rename_i pl hp
    split
    · exact .of (.reply _ _ _ _ _)
    · split
      · exact (Follows.setPlate hp (.marked pl pl.state _ pl.baseFog pl.marginResult pl.note pl.noticePending)).trans
          (.of ((Settles.reply _ _ _ _ _).trans (.examineOnChange _ _)))
      · exact .of (.reply _ _ _ _ _)

theorem Follows.unkeep (p : Port) (m : Message) (i : Nat) : Follows s (s.unkeep p m i) := by
  unfold State.unkeep
  split
  · exact .of (.reply _ _ _ _ _)
  · rename_i pl hp
    split
    · exact (Follows.setPlate hp (.marked pl pl.state _ pl.baseFog pl.marginResult pl.note pl.noticePending)).trans
        (.of ((Settles.reply _ _ _ _ _).trans (.examineOnChange _ _)))
    · exact .of (.reply _ _ _ _ _)

theorem Settles.releasePlate (p : Port) (m : Message) (i : Nat) : Settles s (s.releasePlate p m i) := by
  unfold State.releasePlate
  split
  · exact .reply _ _ _ _ _
  · rename_i pl hp
    split
    · exact .reply _ _ _ _ _
    · split
      · split
        · exact .reply _ _ _ _ _
        · exact (Settles.setPlate hp (.moved pl _ pl.noticePending)).trans
            (.trans (.reply _ _ _ _ _) (.examineOnChange _ _))
      · exact .reply _ _ _ _ _

theorem Follows.register (p : Port) (m : Message) (i : Nat) : Follows s (s.register p m i) := by
  unfold State.register State.busyPlain
  split
  · exact .of (.reply _ _ _ _ _)
  · rename_i pl hp
    repeat' split
    case isFalse =>
      exact (Follows.of ((Settles.setPlate hp (.moved pl _ pl.noticePending)).trans (.reply _ _ _ _ _))).trans
        (.trans (.startRegistration _ _ _)
          (.of ((Settles.examineUpTo _ _).trans (.trans (.tryAllocation _) (.offerUnit _)))))
    all_goals exact .of (.reply _ _ _ _ _)

/-- A submission that passes its checks is for an entered plate, and finds a place in the queue (03 R49). -/
theorem State.checkSubmit_eq_inr {s : State} {f : SubmitFields} {pl : Plate} {c : CalParams} {content : Submission}
    (h : s.checkSubmit f = .inr (pl, c, content)) : s.plate content.slot = some pl ∧ s.programs.length < 8 := by
  unfold State.checkSubmit at h
  repeat' split at h
  all_goals cases h
  exact ⟨‹_›, by omega⟩

theorem Settles.submitProgram (p : Port) (m : Message) (f : SubmitFields) : Settles s (s.submitProgram p m f) := by
  unfold State.submitProgram
  split
  · unfold State.refuseSubmit State.badField
    split <;> exact .reply _ _ _ _ _
  · rename_i pl c content hc
    obtain ⟨hp, hlen⟩ := State.checkSubmit_eq_inr hc
    split
    · exact .reply _ _ _ _ _
    · rename_i pl' hr
      refine (Settles.setPlate hp (.reserve hr)).trans (.trans ?_ (.trans (.reply _ _ _ _ _) (.examineOnChange _ _)))
      refine FollowsBy.sameBy .refl rfl rfl rfl (fun _ => .refl _) ?_ (by simp) (by simp) id rfl rfl rfl
      simp only [List.length_append, List.length_singleton]
      omega

theorem Settles.cancelProgram (p : Port) (m : Message) (tag : Nat) : Settles s (s.cancelProgram p m tag) := by
  unfold State.cancelProgram State.cancelReply
  split
  · exact .reply _ _ _ _ _
  · split
    · exact .reply _ _ _ _ _
    · split
      · exact (Settles.fixOutcome _ _ _).trans (.trans (.releaseProgram _ _) (.trans (.reply _ _ _ _ _)
          (.trans (.withdrawCall _ _) (.trans (.finishProgram _ _) (.settle _ _)))))
      · split
        · exact (Settles.fixOutcome _ _ _).trans (.trans (.reply _ _ _ _ _) (.trans (.giveUpTile _ _ _) (.settle _ _)))
        · exact .reply _ _ _ _ _

theorem Settles.calibrate (p : Port) (m : Message) (a b c : Nat) : Settles s (s.calibrate p m a b c) := by
  unfold State.calibrate State.busyPlain State.badField
  repeat' split
  case isFalse =>
    refine (Settles.calContext s _).trans (.trans (.reply _ _ _ _ _) (.startMove ?_ _))
    simp_all
  all_goals exact .reply _ _ _ _ _

theorem Settles.discardTile (p : Port) (m : Message) (id : TileId) : Settles s (s.discardTile p m id) := by
  unfold State.discardTile State.busyTile
  split
  · exact .reply _ _ _ _ _
  · split
    case h_4 =>
      split
      · exact .reply _ _ _ _ _
      · exact .reply _ _ _ _ _
      · exact (Settles.returnPages _ _).trans (.trans (.removeTile _ _) (.trans (.reply _ _ _ _ _) (.settle _ _)))
    case h_5 => exact (Settles.removeTile _ _).trans (.trans (.reply _ _ _ _ _) (.settle _ _))
    all_goals exact .reply _ _ _ _ _

end Sys2Proof.Machine
end

section
/-! What every command runs, its requests about tiles and ports included, and what every step therefore keeps. -/

namespace Sys2Proof.Machine

variable (s : State)

/-! ### Requests about tiles -/

/-- A port that may take a message, on a link that is not DOWN, has a free entry (09 R199, R206). -/
theorem PortState.outbound_lt_of_mayTake {q : PortState} (h : q.mayTake = true) (hup : q.link ≠ .down) :
    q.outbound.length < 64 := by
  simp only [PortState.mayTake, PortState.hasFree, Bool.or_eq_true, decide_eq_true_eq] at h
  exact h.resolve_left hup

theorem Settles.openRead {p : Port} (h : (s.port p).outbound.length < 64) (r : Read) (m : OutMessage) (y n : Nat) :
    Settles s (s.openRead p r m y n) :=
  .setPort ((PortState.Follows.setRead _ _).trans (.push (q := { s.port p with read := some r }) h _))

theorem Settles.joinReader (id : TileId) (p : Port) (k : ReadKind) (b : Bool) : Settles s (s.joinReader id p k b) :=
  .modTile _ _ _

theorem Settles.streamFetch {p : Port} (h : (s.port p).outbound.length < 64) (m : Message) (t : TileEntry) (b : Bool) :
    Settles s (s.streamFetch p m t b) :=
  (Settles.joinReader _ _ _ _ _).trans (.openRead _ (by simpa [State.joinReader] using h) _ _ _ _)

theorem Settles.makeEntry (p : Port) (t : TileEntry) (h : s.entries.length < 8) : Settles s (s.makeEntry p t) := by
  refine FollowsBy.sameBy .refl rfl rfl rfl (fun _ => .refl _) (by simp [State.makeEntry]) (by simp [State.makeEntry]) ?_
    id rfl rfl rfl
  simp only [State.makeEntry, List.length_append, List.length_singleton]
  omega

theorem Settles.fetchComplete {p : Port} (h : (s.port p).outbound.length < 64) (m : Message) (t : TileEntry)
    (own : Option EntryState) (b : Bool) : Settles s (s.fetchComplete p m t own b) := by
  unfold State.fetchComplete State.busyTile
  split
  · split
    · exact .reply _ _ _ _ _
    · exact (Settles.removeEntry _ _ _).trans (.streamFetch _ (by simpa using h) _ _ _)
  · split
    · exact .reply _ _ _ _ _
    · split
      · exact .reply _ _ _ _ _
      · exact .reply _ _ _ _ _
      · split
        · exact .reply _ _ _ _ _
        · exact .streamFetch _ h _ _ _

theorem Settles.fetchEarly (p : Port) (m : Message) (t : TileEntry) (own : Option EntryState) :
    Settles s (s.fetchEarly p m t own) := by
  unfold State.fetchEarly State.busyTile
  split
  · exact .reply _ _ _ _ _
  · split
    · exact .reply _ _ _ _ _
    · split
      · exact .reply _ _ _ _ _
      · split
        · exact .reply _ _ _ _ _
        · exact (Settles.makeEntry _ _ _ (by omega)).trans (.reply _ _ _ _ _)

theorem Settles.fetchTile {p : Port} (h : (s.port p).mayTake = true) (m : Message) (id : TileId) (b : Bool) :
    Settles s (s.fetchTile p m id b) := by
  unfold State.fetchTile
  split
  · exact .refl _
  · have hroom := PortState.outbound_lt_of_mayTake h ‹_›
    split
    · exact .reply _ _ _ _ _
    · split
      · exact .reply _ _ _ _ _
      · split
        · exact (Settles.removeEntry _ _ _).trans (.reply _ _ _ _ _)
        · split
          · exact .reply _ _ _ _ _
          · split
            · exact (Settles.removeEntry _ _ _).trans (.reply _ _ _ _ _)
            · exact .fetchComplete _ hroom _ _ _ _
            all_goals exact .fetchEarly _ _ _ _ _

theorem Settles.openDrain {p : Port} (h : (s.port p).mayTake = true) (m : Message) (id : TileId) (a k y : Nat)
    (b : Bool) : Settles s (s.openDrain p m id a k y b) := by
  unfold State.openDrain State.busyTile
  split
  · exact .refl _
  · have hroom := PortState.outbound_lt_of_mayTake h ‹_›
    split
    · exact .reply _ _ _ _ _
    · split
      · exact .reply _ _ _ _ _
      · split
        · exact (Settles.removeEntry _ _ _).trans (.reply _ _ _ _ _)
        · split
          · exact .reply _ _ _ _ _
          · split
            · exact (Settles.removeEntry _ _ _).trans (.reply _ _ _ _ _)
            · split
              · exact .reply _ _ _ _ _
              · split
                · exact .reply _ _ _ _ _
                · exact .reply _ _ _ _ _
                · split
                  · exact .reply _ _ _ _ _
                  · exact (Settles.removeEntry _ _ _).trans (.trans (.joinReader _ _ _ _ _)
                      (.trans (.openRead _ (by simpa [State.joinReader] using hroom) _ _ _ _) (.judgeBurst _ _)))

/-! ### Requests about reads, the settings and the port -/

theorem Settles.stopRead (p : Port) (m : Message) : Settles s (s.stopRead p m) := by
  unfold State.stopRead
  split
  · exact .reply _ _ _ _ _
  · rename_i r _
    dsimp only
    have hstop : ∀ e, Settles s ((s.setPort p { (s.port p).stopStream with read := none }).place p e) :=
      fun e => (Settles.setPort ((PortState.Follows.stopStream _).trans (.setRead _ _))).trans (.place _ _ _)
    cases s.tile? r.tile with
    | none => exact (hstop _).trans (.trans (.serveClaims _ _) (.settle _ _))
    | some t =>
      exact (hstop _).trans (.trans (.ite (fun _ => .releaseReader _ _) (fun _ => .refl _))
        (.trans (.serveClaims _ _) (.settle _ _)))

theorem PortState.Follows.view (q : PortState) (base limit : Nat) (flag : Bool) :
    q.Follows { q with windowBase := base, windowLimit := limit, previewFlag := flag } := ⟨rfl, rfl, id⟩

theorem Settles.setWindow (p : Port) (m : Message) (a b : Nat) : Settles s (s.setWindow p m a b) :=
  (Settles.setPort (.view _ _ _ (s.port p).previewFlag)).trans (.reply _ _ _ _ _)

theorem Settles.setPreview (p : Port) (m : Message) (b : Bool) : Settles s (s.setPreview p m b) :=
  (Settles.setPort (.view _ (s.port p).windowBase (s.port p).windowLimit b)).trans (.reply _ _ _ _ _)

theorem Follows.dropKeep (p : Port) : Follows s (s.dropKeep p) := by
  unfold State.dropKeep
  split
  · unfold State.modPlate
    split
    · rename_i pl hp
      exact .setPlate hp (.marked pl pl.state _ pl.baseFog pl.marginResult pl.note pl.noticePending)
    · exact .refl _
  · exact .refl _

theorem Follows.portReset (p : Port) : Follows s (s.portReset p) := by
  unfold State.portReset
  dsimp only
  exact (Follows.dropKeep _ _).trans (.of ((Settles.endReadSilently _ _).trans (.trans (.dropEntries _ _)
    (.trans (.setPort (.view _ 0 31 false)) (.trans (.dropFinished _ _) (.serveFreed _ _ _))))))

theorem Runs.writeSettings (p : Port) (m : Message) (w : Settings) :
    Runs (.writeSettings p) s (s.writeSettings p m w) :=
  .trans (.alters (.writes p w)) (.of (.reply _ _ _ _ _))

/-- What the command of a request or post runs. -/
theorem Runs.serve {p : Port} (h : (s.port p).mayTake = true) (m : Message) (r : Request) :
    Runs (r.command p) s (s.serve p m r) := by
  cases r with
  | plateEnter f => exact .plateEnter _ _ _ _
  | readPlate i => exact .of (.readPlate _ _ _ _)
  | raiseBudget i n => exact .follows (.raiseBudget _ _ _ _ _)
  | retirePlate i => exact .retirePlate _ _ _ _
  | keep i => exact .follows (.keep _ _ _ _)
  | unkeep i => exact .follows (.unkeep _ _ _ _)
  | releasePlate i => exact .of (.releasePlate _ _ _ _)
  | register i => exact .follows (.register _ _ _ _)
  | submitProgram f => exact .of (.submitProgram _ _ _ _)
  | cancelProgram tag => exact .of (.cancelProgram _ _ _ _)
  | calibrate t l w => exact .of (.calibrate _ _ _ _ _ _)
  | discardTile id => exact .of (.discardTile _ _ _ _)
  | fetchTile id c => exact .of (.fetchTile _ h _ _ _)
  | openDrain id t k l c => exact .of (.openDrain _ h _ _ _ _ _ _)
  | stopRead => exact .of (.stopRead _ _ _)
  | setWindow b l => exact .of (.setWindow _ _ _ _ _)
  | readSettings => exact .of (.reply _ _ _ _ _)
  | writeSettings => exact .writeSettings _ _ _ _
  | setPreview on => exact .of (.setPreview _ _ _ _)
  | queryStatus => exact .of (.reply _ _ _ _ _)
  | platePlaced i => exact .follows (.platePlaced _ _ _ _)
  | plateRemoved i => exact .follows (.plateRemoved _ _ _ _)
  | annotate i n => exact .follows (.annotate _ _ _ _ _)
  | portReset => exact .follows (.portReset _ _)

/-! ### Commands -/

variable {s}

theorem Settles.freshPort {p : Port} {q : PortState} (h : (s.port p).Follows q) : Settles s (s.fresh.setPort p q) :=
  (Settles.fresh s).trans (.setPort (by rwa [State.fresh_port]))

/-- The outcomes of a command are what it runs. -/
theorem Happens.runs {t : State} {c : Instr} (h : Happens s c t) : Runs c s t := by
  have fresh := Settles.fresh s
  cases h with
  | nothing => exact .of fresh
  | served hasks =>
    obtain ⟨hwaits, -⟩ := hasks
    refine .trans (.of (.taken hwaits)) (.serve _ ?_ _ _)
    simpa [PortState.mayTake, PortState.hasFree] using hwaits.1
  | discarded hwaits => exact .of (.taken hwaits)
  | refused hwaits => exact .of ((Settles.taken hwaits).trans (.place _ _ _))
  | reset => exact .alters .reset
  | lock =>
    rename_i p hdown
    have hup := Alters.comesUp (s := s.fresh) p
    rw [State.fresh_port] at hup
    exact .trans (.of fresh) (.trans (.alters hup) (.of (.serveFreed _ _ _)))
  | lossOfLock =>
    rename_i p hup
    have hdown := Alters.goesDown (s := s.fresh) p
    rw [State.fresh_port] at hdown
    exact .trans (.of fresh) (.trans (.alters hdown) (.of ((Settles.dropEntries _ _).trans (.endReadSilently _ _))))
  | arrival f => exact .of (.freshPort (.accept _ _))
  | accepted hq => exact .of ((Settles.freshPort (.acceptMessage hq)).trans (.trans (.emit _ _) (.serveFreed _ _ _)))
  | delivered he =>
    exact .of (fresh.trans (.trans (.lineDelivered s.fresh (by simpa using he) _ _) (.serveFreed _ _ _)))
  | claim => exact .of (fresh.trans (.serveAlone _ _ _))
  | grant => exact .of (fresh.trans (.grantWaiting _))
  | handover => exact .of (fresh.trans (.offerUnit _))
  | moved => exact .follows (.trans (.of (fresh.trans (.withTimer _ _))) (.trans (.beginExposure _) (.of (.settle _ _))))
  | timed => exact .of (fresh.trans (.withTimer _ _))
  | moveFails => exact .follows (.trans (.of fresh) (.trans (.moveFails _ _) (.of (.settle _ _))))
  | resent => exact .of (fresh.trans (.resendMove _ _))
  | lampEnds =>
    rename_i x hu hc
    have hends : Settles s (s.fresh.lampEnds x) :=
      fresh.trans (.trans (.stopTake _) (.ofUnit rfl (fun _ h => by cases h)))
    split
    · exact .of (hends.trans (.regPhase _ _))
    · exact .of hends
  | faultyReadout => exact .follows (.trans (.of fresh) (.trans (.takeFaulty _) (.of (.settle _ _))))
  | faultyExposure =>
    exact .follows (.trans (.of (fresh.trans (.stopTake _))) (.trans (.takeFaulty _) (.of (.settle _ _))))
  | goodLine => exact .trans (.of fresh) (.trans (.takeLine _ _ _ _ _ _ _ _) (.of (.settle _ _)))
  | measured => exact .follows (.trans (.of fresh) (.trans (.endRegistration _ _ _ _ _) (.of (.settle _ _))))
  | merged =>
    exact .trans (.of fresh) (.trans (.lineMerged _ _ _ _) (.of (.mergeQueue _ _ _)))
  | completed =>
    exact .trans (.of fresh) (.trans (.lineMerged _ _ _ _) (.of ((Settles.mergeCompleted _ _).trans (.settle _ _))))
  | entryReady id => exact .of (fresh.trans (.entryTurnsReady _ _))
  | entryExpires id => exact .of (fresh.trans (.expireEntry _ _))

end Sys2Proof.Machine
end

section
/-! Reset and the step invariants: the obligations about what every step keeps, and about what only some commands change. -/

namespace Sys2Proof.Machine

/-! ### From commands to steps -/

/-- What operations and alterations keep, every step keeps. -/
theorem step_keeps_of_runs {P : State → Prop} (hpending : ∀ s rest, P s → P { s with pending := rest })
    (hfollows : ∀ s t, Follows s t → P s → P t) (halters : ∀ s t c, Alters s c t → P s → P t) {s t : State}
    (hs : P s) (h : step s = .next t) : P t :=
  step_keeps hpending (fun _ c _ hc => hc.runs.lift (fun _ _ _ h k w => k (h w)) hfollows (fun s t => halters s t c)) hs h

/-- What a preorder allows of operations and of the alterations of a command, it allows of the command. -/
theorem exec_lift {c : Instr} {R : State → State → Prop} (htrans : ∀ s t u, R s t → R t u → R s u)
    (hfollows : ∀ s t, Follows s t → R s t) (halters : ∀ s t, Alters s c t → R s t) {s t : State}
    (h : exec c s = .next t) : R s t :=
  (exec_happens h).runs.lift htrans hfollows halters

/-- A record after operations comes from a record before them. -/
theorem PlatesRelated.of_some {R : Plate → Plate → Prop} {s t : State} (h : PlatesRelated R s t) {i : Nat} {b : Plate}
    (hb : t.plate i = some b) : ∃ a, s.plate i = some a ∧ R a b := by
  cases ha : s.plate i with
  | none => rw [(h i).1 ha] at hb; cases hb
  | some a =>
    obtain ⟨b', hb', hr⟩ := (h i).2 a ha
    rw [hb] at hb'
    cases hb'
    exact ⟨a, rfl, hr⟩

/-! ### What the alterations keep -/

theorem StageTrue.alters {s t : State} {c : Instr} (h : Alters s c t) : StageTrue s → StageTrue t := by
  cases h with
  | reset => exact fun _ => (StageAgrees.reset _).1
  | enters => exact fun _ => ⟨rfl, rfl⟩
  | retires => exact fun _ => ⟨rfl, rfl⟩
  | comesUp => intro h; simpa [StageTrue] using h
  | goesDown => intro h; simpa [StageTrue] using h
  | _ => exact id

theorem DoseKept.alters {s t : State} {c : Instr} (h : Alters s c t) : DoseKept s → DoseKept t := by
  intro w i b hb
  cases h with
  | reset => rw [State.plate_reset] at hb; cases hb
  | enters hfree hpl =>
    rw [State.plate_setPlate] at hb
    split at hb
    · cases hb; exact hpl
    · exact w i b hb
  | retires =>
    rw [State.plate_setPlate] at hb
    split at hb
    · cases hb
    · exact w i b hb
  | comesUp => exact w i b (by simpa [State.plate] using hb)
  | goesDown => exact w i b (by simpa [State.plate] using hb)
  | _ => exact w i b hb

theorem GateKept.alters {s t : State} {c : Instr} (h : Alters s c t) : GateKept s → GateKept t := by
  cases h with
  | reset => exact fun _ hg => by cases hg
  | comesUp => intro h; simpa [GateKept] using h
  | goesDown => intro h; simpa [GateKept] using h
  | _ => exact id

/-- The ports' queues and lists keep their sizes where a port is replaced by one that does. -/
theorem QueuesKept.setPort {s : State} (h : QueuesKept s) {p : Port} {q : PortState} (hq : q.bounded) :
    QueuesKept (s.setPort p q) := by
  obtain ⟨hports, hrest⟩ := h
  refine ⟨fun r => ?_, by simpa using hrest⟩
  rw [State.port_setPort]
  split
  · exact hq
  · exact hports r

theorem QueuesKept.reset (q : List Instr) : QueuesKept { State.reset with pending := q } := by
  refine ⟨fun p => ?_, by simp [State.reset]⟩
  cases p <;> simp [State.port, State.reset, PortState.bounded, PortState.reset]

theorem QueuesKept.alters {s t : State} {c : Instr} (h : Alters s c t) : QueuesKept s → QueuesKept t := by
  intro w
  cases h with
  | reset => exact .reset _
  | comesUp p => exact w.setPort (w.1 p)
  | goesDown p => exact w.setPort ⟨(w.1 p).1, Nat.zero_le _, (w.1 p).2.2⟩
  | enters => exact ⟨fun p => by simpa using w.1 p, w.2⟩
  | retires => exact ⟨fun p => by simpa using w.1 p, w.2⟩
  | _ => exact w

theorem CalKept.alters {s t : State} {c : Instr} (h : Alters s c t) : CalKept s → CalKept t := by
  intro w
  cases h with
  | reset => simp [CalKept, State.reset]
  | calibrates =>
    simp only [CalKept, calibratedRecord, nextGeneration, reduceCtorEq, iff_false]
    split <;> omega
  | comesUp => simpa [CalKept] using w
  | goesDown => simpa [CalKept] using w
  | _ => exact w

theorem PagesCanonical.alters {s t : State} {c : Instr} (h : Alters s c t) : PagesCanonical s → PagesCanonical t := by
  intro w
  cases h with
  | reset => rfl
  | stores => exact Memory.writeLine_wf w _ _ _ _
  | merges => exact Memory.writeLine_wf w _ _ _ _
  | comesUp => simpa [PagesCanonical] using w
  | goesDown => simpa [PagesCanonical] using w
  | _ => exact w

/-! ### The steps -/

theorem step_keeps_stageTrue {s t : State} (hs : StageTrue s) (h : step s = .next t) : StageTrue t :=
  step_keeps_of_runs (fun _ _ => id) (fun _ _ h => h.stage) (fun _ _ _ => .alters) hs h

theorem step_keeps_stageAgrees {s t : State} (hs : StageAgrees s) (h : step s = .next t) : StageAgrees t :=
  step_keeps (P := StageAgrees) (fun _ _ => id) (fun _ _ _ hc => hc.keepsStage) hs h

theorem DoseKept.follows {s t : State} (h : Follows s t) (w : DoseKept s) : DoseKept t := by
  intro i b hb
  obtain ⟨a, ha, hab⟩ := h.plates.of_some hb
  exact hab.within (w i a ha)

theorem QueuesKept.follows {s t : State} (h : Follows s t) (w : QueuesKept s) : QueuesKept t := by
  obtain ⟨hports, hprograms, hdirectory, hentries⟩ := w
  have := h.programs
  have := h.directory
  have := h.entries
  exact ⟨fun p => (h.ports p).bounded (hports p), by omega, by omega, by omega⟩

theorem step_keeps_queuesKept {s t : State} (hs : QueuesKept s) (h : step s = .next t) : QueuesKept t :=
  step_keeps_of_runs (fun _ _ w => w) (fun _ _ => .follows) (fun _ _ _ => .alters) hs h

/-! ### The reservation lists -/

/-- Distinct tags of programs of the queue are at most as many as the programs. -/
theorem ReservationsKept.length_le {s : State} (h : ReservationsKept s) {i : Nat} {pl : Plate} (hp : s.plate i = some pl) :
    pl.reservations.length ≤ s.programs.length := by
  obtain ⟨hnodup, hheld⟩ := h i pl hp
  have hsub : pl.reservations.map (·.tag) ⊆ s.programs.map (·.tag) := by
    intro tag htag
    obtain ⟨r, hr, rfl⟩ := List.mem_map.1 htag
    obtain ⟨g, hg, htag, -⟩ := hheld r hr
    exact List.mem_map.2 ⟨g, hg, htag⟩
  simpa using (List.subperm_of_subset hnodup hsub).length_le

/-! ### The indicator and the occupant -/

theorem PortSet.nonempty_iff (k : PortSet) : k.nonempty = true ↔ ∃ p, k.has p = true := by
  constructor
  · intro h
    simp only [PortSet.nonempty, Bool.or_eq_true] at h
    rcases h with (h | h) | h
    · exact ⟨.p0, h⟩
    · exact ⟨.p1, h⟩
    · exact ⟨.p2, h⟩
  · rintro ⟨p, hp⟩
    cases p <;> simp_all [PortSet.nonempty, PortSet.has]

theorem indicatorLevel_iff (s : State) :
    indicatorLevel s.plates = true ↔ ∃ i pl, s.plate i = some pl ∧ pl.hasHold = true := by
  rw [indicatorLevel, List.any_eq_true]
  constructor
  · rintro ⟨r, hr, hh⟩
    obtain ⟨i, -, hi⟩ := (s.mem_plates_toList r).1 hr
    cases r with
    | none => cases hh
    | some pl => exact ⟨i, pl, hi, hh⟩
  · rintro ⟨i, pl, hp, hh⟩
    exact ⟨some pl, (s.mem_plates_toList _).2 ⟨i, State.lt_of_plate hp, hp⟩, hh⟩

/-- Where some plate is on the stage, the stage has an occupant whose plate is on it. -/
theorem StageTrue.occupant_onStage {s : State} (h : StageTrue s) {i : Nat} (ho : s.occupant = some i) :
    ∃ pl, s.plate i = some pl ∧ pl.state.onStage = true := by
  rw [h.1, stageSlot, List.findIdx?_eq_some_iff_getElem] at ho
  obtain ⟨hi, hon, -⟩ := ho
  have hi' : i < 32 := by simpa using hi
  have hp : s.plate i = s.plates.toList[i] := by
    rw [State.plate, Vector.getElem?_eq_getElem hi']
    simp
  cases hr : s.plates.toList[i] with
  | none => rw [hr] at hon; cases hon
  | some pl =>
    rw [hr] at hp hon
    exact ⟨pl, hp, hon⟩

/-! ### The obligations -/

/-- Settles O1: the step's own text. -/
theorem stepRunsFrontCommand : Obligations.StepRunsFrontCommand := by
  unfold Obligations.StepRunsFrontCommand
  intro c rest s h
  rw [step, h]

/-- Settles O2: the reset state is written out field by field. -/
theorem resetLeavesResetState : Obligations.ResetLeavesResetState := by
  unfold Obligations.ResetLeavesResetState
  intro s
  refine ⟨{ State.reset with pending := s.pending }, rfl, rfl, fun i => State.plate_reset _ i, ?_⟩
  have hports : ∀ p, ({ State.reset with pending := s.pending } : State).port p = PortState.reset := by
    intro p; cases p <;> simp only [State.port, State.reset]
  simp only [hports]
  simp [State.reset, ExposureUnit.reset, PortState.reset, Settings.default]

/-- Settles O3: each invariant of the empty part. -/
theorem resetStateIsSafe : Obligations.ResetStateIsSafe := by
  unfold Obligations.ResetStateIsSafe
  have hreset : ({ State.reset with pending := [] } : State) = State.reset := by simp only [State.reset]
  rw [← hreset]
  have hdose : DoseKept { State.reset with pending := [] } := fun i pl hp => by
    rw [State.plate_reset] at hp
    cases hp
  have hgate : GateKept { State.reset with pending := [] } := fun hg => by simp [State.reset] at hg
  have hcal : CalKept { State.reset with pending := [] } := by simp [CalKept, State.reset]
  have hpages : PagesCanonical { State.reset with pending := [] } := by simp [PagesCanonical, State.reset, Memory.wf]
  obtain ⟨hstage, hone⟩ := StageAgrees.reset []
  obtain ⟨hroom, hreservations⟩ := Sizes.reset []
  exact ⟨hstage, hone, hdose, hgate, .reset [], hroom, hreservations, .reset [], .reset [], hpages, hcal⟩

/-- Settles O4: every operation keeps the occupant and the indicator with the records (`Follows`), and at most one plate
on the stage (`KeepsStage`); the rest is what the two searches of the table find. -/
theorem stepKeepsIndicatorTrue : Obligations.StepKeepsIndicatorTrue := by
  unfold Obligations.StepKeepsIndicatorTrue
  refine ⟨fun s t => step_keeps_stageTrue, fun s t h1 h2 h => (step_keeps_stageAgrees ⟨h1, h2⟩ h).2, fun s h => ?_⟩
  simp only [← PlateState.onStage_iff]
  refine ⟨?_, ⟨fun ho i pl hp => ?_, fun hno => ?_⟩, fun hone i => ⟨h.occupant_onStage, ?_⟩⟩
  · rw [h.2, indicatorLevel_iff]
    simp [Plate.hasHold, PortSet.nonempty_iff, or_assoc]
  · simpa using h.empty ho i pl hp
  · cases ho : s.occupant with
    | none => rfl
    | some i =>
      obtain ⟨pl, hp, hon⟩ := h.occupant_onStage ho
      exact absurd hon (hno i pl hp)
  · rintro ⟨pl, hp, hon⟩
    cases ho : s.occupant with
    | none => rw [h.empty ho i pl hp] at hon; cases hon
    | some j =>
      obtain ⟨pl', hp', hon'⟩ := h.occupant_onStage ho
      rw [hone.1 j i pl' pl hp' hp hon' hon]

/-- Settles O5: no operation lets spent plus reserved pass the budget, and a plate enters with both at 0. -/
theorem stepKeepsDoseWithinBudget : Obligations.StepKeepsDoseWithinBudget := by
  unfold Obligations.StepKeepsDoseWithinBudget
  exact fun s t => step_keeps_of_runs (fun _ _ w => w) (fun _ _ => .follows) (fun _ _ _ => .alters)

/-- Settles O6: the gate opens with EXPOSING alone, and whatever leaves EXPOSING shuts it. -/
theorem stepKeepsGateShutOutsideExposure : Obligations.StepKeepsGateShutOutsideExposure := by
  unfold Obligations.StepKeepsGateShutOutsideExposure
  exact fun s t => step_keeps_of_runs (fun _ _ => id) (fun _ _ h => h.gate) (fun _ _ _ => .alters)

/-- Settles O7: the sizes by `Follows`, the merge queue and the reservation lists by `KeepsStore`; a reservation list has an
entry for each of some of the at most 8 programs. -/
theorem stepKeepsQueuesBounded : Obligations.StepKeepsQueuesBounded := by
  unfold Obligations.StepKeepsQueuesBounded
  refine ⟨fun s t => step_keeps_queuesKept, fun s t hroom hres htiles hq h => ?_⟩
  obtain ⟨-, -, hsizes⟩ := step_keepsStore hq h htiles
  obtain ⟨hroom', hres'⟩ := hsizes ⟨hroom, hres⟩
  have hlen := (step_keeps_queuesKept hq h).2.1
  exact ⟨hroom', hres', fun i pl hp => (hres'.length_le hp).trans hlen⟩

/-- Settles O8: a line is stored in canonical form, and the operations keep pages and tile entries (`KeepsStore`). -/
theorem stepKeepsPagesCanonical : Obligations.StepKeepsPagesCanonical := by
  unfold Obligations.StepKeepsPagesCanonical
  refine ⟨fun s t => ?_, fun s t hp ha hq h => (step_keepsStore hq h ha).2.1 hp, fun s t ha hq h =>
    (step_keepsStore hq h ha).1⟩
  exact step_keeps_of_runs (fun _ _ => id) (fun s t h w => by rw [PagesCanonical, h.pages]; exact w)
    (fun _ _ _ => .alters)

/-- Settles O9: the record is replaced whole, with a generation from 1 on. -/
theorem stepKeepsCalibrationRecordWhole : Obligations.StepKeepsCalibrationRecordWhole := by
  unfold Obligations.StepKeepsCalibrationRecordWhole
  exact fun s t => step_keeps_of_runs (fun _ _ => id) (fun s t h w => by rw [CalKept, h.cal]; exact w)
    (fun _ _ _ => .alters)

/-- Settles O10: no operation changes a link or an UP count, and no alteration but those of the three commands. -/
theorem linkChangesOnlyAtLock : Obligations.LinkChangesOnlyAtLock := by
  unfold Obligations.LinkChangesOnlyAtLock
  intro c p s t hlock hloss hreset h
  refine exec_lift (R := fun s t => (t.port p).link = (s.port p).link ∧ (t.port p).upCount = (s.port p).upCount)
    (fun s t u h k => ⟨k.1.trans h.1, k.2.trans h.2⟩) (fun s t h => ⟨(h.ports p).link, (h.ports p).upCount⟩) ?_ h
  intro s t h
  cases h with
  | reset => exact absurd rfl hreset
  | comesUp q =>
    have hne : p ≠ q := by rintro rfl; exact hlock rfl
    simp [State.port_setPort_of_ne _ _ hne]
  | goesDown q =>
    have hne : p ≠ q := by rintro rfl; exact hloss rfl
    simp [State.port_setPort_of_ne _ _ hne]
  | enters => simp
  | retires => simp
  | _ => exact ⟨rfl, rfl⟩

/-- Settles O11: the settings are written by `Alters.writes` alone, the calibration record by `Alters.calibrates`. -/
theorem settingsAndCalibrationChangeOnlyWhereStated : Obligations.SettingsAndCalibrationChangeOnlyWhereStated := by
  unfold Obligations.SettingsAndCalibrationChangeOnlyWhereStated
  intro c s t hreset h
  refine ⟨fun hwrite => ?_, fun hline => ?_⟩
  · refine exec_lift (R := fun s t => t.settings = s.settings) (fun s t u h k => k.trans h) (fun s t h => h.settings) ?_ h
    intro s t h
    cases h with
    | reset => exact absurd rfl hreset
    | writes p => exact absurd rfl (hwrite p)
    | comesUp => simp
    | goesDown => simp
    | _ => rfl
  · refine exec_lift (R := fun s t => t.cal = s.cal) (fun s t u h k => k.trans h) (fun s t h => h.cal) ?_ h
    intro s t h
    cases h with
    | reset => exact absurd rfl hreset
    | calibrates => exact absurd rfl (hline _ _ _ _ _)
    | comesUp => simp
    | goesDown => simp
    | _ => rfl

/-- Settles O12: only `Alters.stores` and `Alters.merges` write pages. -/
theorem pagesChangeOnlyAtLines : Obligations.PagesChangeOnlyAtLines := by
  unfold Obligations.PagesChangeOnlyAtLines
  intro c s t hreset hmerge hline h a
  suffices hpages : t.pages = s.pages by rw [hpages]
  refine exec_lift (R := fun s t => t.pages = s.pages) (fun s t u h k => k.trans h) (fun s t h => h.pages) ?_ h
  intro s t h
  cases h with
  | reset => exact absurd rfl hreset
  | stores => exact absurd rfl (hline _ _ _ _ _)
  | merges => exact absurd rfl hmerge
  | comesUp => simp
  | goesDown => simp
  | _ => rfl

/-- The record of an entered plate goes on, or its slot becomes FREE and stays so. -/
def PlateGoesOn (i : Nat) (s t : State) : Prop :=
  (s.plate i = none → t.plate i = none) ∧ ∀ a b, s.plate i = some a → t.plate i = some b → a.Follows b

theorem PlateGoesOn.of_plates {i : Nat} {s t : State} (h : t.plates = s.plates) : PlateGoesOn i s t := by
  rw [PlateGoesOn, State.plate_congr h]
  exact ⟨id, fun a b ha hb => by rw [ha] at hb; cases hb; exact .refl a⟩

theorem PlateGoesOn.trans {i : Nat} {s t u : State} (h : PlateGoesOn i s t) (k : PlateGoesOn i t u) :
    PlateGoesOn i s u := by
  refine ⟨fun hs => k.1 (h.1 hs), fun a c ha hc => ?_⟩
  cases hb : t.plate i with
  | none => rw [k.1 hb] at hc; cases hc
  | some b => exact (h.2 a b ha hb).trans (k.2 b c hb hc)

theorem PlateGoesOn.of_follows {i : Nat} {s t : State} (h : Follows s t) : PlateGoesOn i s t := by
  refine ⟨(h.plates i).1, fun a b ha hb => ?_⟩
  obtain ⟨b', hb', hab⟩ := (h.plates i).2 a ha
  rw [hb] at hb'
  cases hb'
  exact hab

/-- A record kept through PLATE_ENTER, which fills a FREE slot alone. -/
def PlateStays (i : Nat) (s t : State) : Prop := ∀ a, s.plate i = some a → ∃ b, t.plate i = some b ∧ a.Follows b

theorem PlateStays.trans {i : Nat} {s t u : State} (h : PlateStays i s t) (k : PlateStays i t u) :
    PlateStays i s u := by
  intro a ha
  obtain ⟨b, hb, hab⟩ := h a ha
  obtain ⟨c, hc, hbc⟩ := k b hb
  exact ⟨c, hc, hab.trans hbc⟩

theorem exec_plateGoesOn {c : Instr} {s t : State} (hreset : c ≠ .reset) (henter : ∀ p, c ≠ .plateEnter p)
    (h : exec c s = .next t) (i : Nat) : PlateGoesOn i s t := by
  refine exec_lift (fun _ _ _ => .trans) (fun _ _ => .of_follows) ?_ h
  intro s t h
  cases h with
  | reset => exact absurd rfl hreset
  | enters => exact absurd rfl (henter _)
  | retires p slot =>
    rw [PlateGoesOn, State.plate_setPlate]
    split
    · exact ⟨fun _ => rfl, fun _ _ _ hb => by cases hb⟩
    · exact ⟨id, fun a b ha hb => by rw [ha] at hb; cases hb; exact .refl a⟩
  | comesUp => exact .of_plates (by simp)
  | goesDown => exact .of_plates (by simp)
  | _ => exact .of_plates rfl

theorem exec_plateEnter_plateStays {p : Port} {s t : State} (h : exec (.plateEnter p) s = .next t) (i : Nat) :
    PlateStays i s t := by
  refine exec_lift (R := PlateStays i) (fun _ _ _ => .trans) (fun s t h => (h.plates i).2) ?_ h
  intro s t h a ha
  cases h with
  | enters hfree =>
    refine ⟨a, ?_, .refl a⟩
    rw [State.plate_setPlate, if_neg]
    · exact ha
    · rintro ⟨rfl, -⟩
      rw [ha] at hfree
      cases hfree

/-- Settles O13: no operation touches identity, and accounts only grow; PLATE_ENTER fills a FREE slot. -/
theorem plateIdentityAndDoseNeverFall : Obligations.PlateIdentityAndDoseNeverFall := by
  unfold Obligations.PlateIdentityAndDoseNeverFall
  intro c s t slot pl pl' hreset h hpl hpl'
  have hfollows : pl.Follows pl' := by
    by_cases henter : ∃ p, c = .plateEnter p
    · obtain ⟨p, rfl⟩ := henter
      obtain ⟨b, hb, hab⟩ := exec_plateEnter_plateStays h slot pl hpl
      rw [hpl'] at hb
      cases hb
      exact hab
    · exact (exec_plateGoesOn hreset (fun p e => henter ⟨p, e⟩) h slot).2 pl pl' hpl hpl'
  exact ⟨hfollows.accession, hfollows.sizeClass, hfollows.condition, hfollows.carrier, hfollows.handlerPort,
    hfollows.budget, hfollows.spent⟩

end Sys2Proof.Machine
end

section
/-! Lists, holds, keep sets, accounts, the lamp timer, and the requests and posts that touch one port alone. -/

namespace Sys2Proof.Machine

/-! ### The outbound list (09 R202, R203) -/

theorem State.place_of_canTake {s : State} {p : Port} (h : (s.port p).canTake = true) (e : OutEntry) :
    s.place p e = s.setPort p ((s.port p).push e) := by
  rw [State.place, PortState.offer, if_pos h]

theorem State.place_of_not_canTake {s : State} {p : Port} (h : (s.port p).canTake = false) (e : OutEntry) :
    s.place p e = s := by
  rw [State.place, PortState.offer, if_neg (by simp [h]), State.setPort_port]

/-- A change of a port is a change of the ports alone. -/
theorem State.setPort_eq (s : State) (p : Port) (q : PortState) :
    s.setPort p q = { s with ports := (s.setPort p q).ports } := by
  cases p <;> rfl

/-- Settles O15, by whether the port can take the entry. -/
theorem entryGoesToTailOrIsDropped : Obligations.EntryGoesToTailOrIsDropped := by
  unfold Obligations.EntryGoesToTailOrIsDropped
  intro s p e
  refine ⟨fun hup hroom => ?_, fun hfull => ?_⟩
  · have hcan := (s.port p).canTake_iff.2 ⟨hup, hroom⟩
    refine ⟨?_, State.setPort_eq _ _ _, fun q hq => State.port_place_of_ne _ _ hq⟩
    simp [State.port_place_self, PortState.offer_outbound, hcan]
  · exact State.place_of_not_canTake ((s.port p).canTake_false_iff.2 hfull) e

/-! ### Holds and keep sets (01 R5, R25, R26) -/

/-- Settles O26, by the stage states and those off the stage. -/
theorem holdIsKeepProgramOrRegistration : Obligations.HoldIsKeepProgramOrRegistration := by
  unfold Obligations.HoldIsKeepProgramOrRegistration
  refine fun pl => ⟨fun hon => ?_, fun hoff => ?_⟩
  · simp [Plate.hasHold, (PlateState.onStage_iff _).2 hon, PortSet.nonempty_iff, or_assoc]
  · simp [Plate.hasHold, (PlateState.onStage_eq_false_iff _).2 hoff]

section Keep

variable {s : State} {slot : Nat} {pl : Plate} (p : Port) (m : Message)

theorem State.keep_free (h : s.plate slot = none) : s.keep p m slot = s.reply p m .notOnStage := by
  simp only [State.keep, h]

theorem State.keep_offStage (h : s.plate slot = some pl) (hoff : pl.state = .racked ∨ pl.state = .called) :
    s.keep p m slot = s.reply p m .notOnStage := by
  rcases hoff with hst | hst <;> simp [State.keep, h, hst, PlateState.onStage]

theorem State.keep_releasing (h : s.plate slot = some pl) (hst : pl.state = .releasing) :
    s.keep p m slot = s.reply p m .releasing := by
  simp only [State.keep, h, if_pos hst]

theorem State.keep_onStage (h : s.plate slot = some pl)
    (hon : pl.state = .placed ∨ pl.state = .registering ∨ pl.state = .staged) :
    s.keep p m slot = s.examineOnChange ((s.setPlate slot (some { pl with keeps := pl.keeps.put p true })).reply p m .ok
      (.keeps (pl.keeps.put p true))) := by
  rcases hon with hst | hst | hst <;> simp [State.keep, h, hst, PlateState.onStage]

theorem State.unkeep_free (h : s.plate slot = none) : s.unkeep p m slot = s.reply p m .notOnStage := by
  simp only [State.unkeep, h]

theorem State.unkeep_offStage (h : s.plate slot = some pl) (hoff : pl.state = .racked ∨ pl.state = .called) :
    s.unkeep p m slot = s.reply p m .notOnStage := by
  simp [State.unkeep, h, (PlateState.onStage_eq_false_iff _).2 hoff]

theorem State.unkeep_onStage (h : s.plate slot = some pl)
    (hon : pl.state = .placed ∨ pl.state = .registering ∨ pl.state = .staged ∨ pl.state = .releasing) :
    s.unkeep p m slot = s.examineOnChange ((s.setPlate slot (some { pl with keeps := pl.keeps.put p false })).reply p m
      .ok (.keeps (pl.keeps.put p false))) := by
  simp [State.unkeep, h, (PlateState.onStage_iff _).2 hon]

end Keep

/-- Settles O27, by the rows of R25 and R26; the set after the change is `PortSet.put`. -/
theorem keepAndUnkeepChangeKeepSet : Obligations.KeepAndUnkeepChangeKeepSet := by
  unfold Obligations.KeepAndUnkeepChangeKeepSet
  intro s p m rest slot u
  have hplate : u.plate slot = s.plate slot := State.plate_taken _ _ _ _
  have hput : ∀ (k : PortSet) b, (k.put p b).has p = b ∧ ∀ q, q ≠ p → (k.put p b).has q = k.has q := fun k b =>
    ⟨by rw [PortSet.has_put, if_pos rfl], fun q hq => by rw [PortSet.has_put, if_neg hq]⟩
  refine ⟨fun hasks => ?_, fun hasks => ?_⟩
  · have hexec : exec (.keep p) s = .next (u.keep p m slot) := exec_command_of_asks (r := .keep slot) hasks
    rw [hexec]
    refine ⟨fun h => ?_, fun pl h => ⟨fun hoff => ?_, fun hst => ?_, fun hon => ?_⟩⟩
    · exact congrArg _ (State.keep_free p m (hplate.trans h))
    · exact congrArg _ (State.keep_offStage p m (hplate.trans h) hoff)
    · exact congrArg _ (State.keep_releasing p m (hplate.trans h) hst)
    · exact ⟨_, (hput _ _).1, (hput _ _).2, congrArg _ (State.keep_onStage p m (hplate.trans h) hon)⟩
  · have hexec : exec (.unkeep p) s = .next (u.unkeep p m slot) := exec_command_of_asks (r := .unkeep slot) hasks
    rw [hexec]
    refine ⟨fun h => ?_, fun pl h => ⟨fun hoff => ?_, fun hon => ?_⟩⟩
    · exact congrArg _ (State.unkeep_free p m (hplate.trans h))
    · exact congrArg _ (State.unkeep_offStage p m (hplate.trans h) hoff)
    · exact ⟨_, (hput _ _).1, (hput _ _).2, congrArg _ (State.unkeep_onStage p m (hplate.trans h) hon)⟩

/-! ### The accounts of a plate (01 R10 to R14) -/

section Entry

variable {pl : Plate} {tag : Nat} {before after : List Reservation} {r : Reservation}
  (hres : pl.reservations = before ++ r :: after) (hr : r.tag = tag) (hone : ∀ x ∈ before ++ after, x.tag ≠ tag)
include hres hr hone

/-- The entry of a tag that stands once. -/
theorem Plate.remainingOf_of_split : pl.remainingOf tag = r.remaining := by
  have hbefore : before.find? (fun x => decide (x.tag = tag)) = none :=
    List.find?_eq_none.2 fun x hx => by simpa using hone x (by simp [hx])
  simp [Plate.remainingOf, hres, List.find?_append, hbefore, hr]

theorem Plate.setRemaining_of_split (amount : Nat) :
    setRemaining pl.reservations tag amount = before ++ { r with remaining := amount } :: after := by
  rw [hres]
  exact Machine.setRemaining_of_split hr (fun x hx => hone x (by simp [hx])) amount

theorem Plate.release_of_split : pl.release tag =
    (r.remaining, { pl with reservations := before ++ after, programCount := pl.programCount - 1 }) := by
  have hkeep : (before ++ after).filter (fun x => decide (x.tag ≠ tag)) = before ++ after :=
    List.filter_eq_self.2 fun x hx => by simpa using hone x hx
  have hfilter : pl.reservations.filter (fun x => decide (x.tag ≠ tag)) = before ++ after := by
    rw [hres, ← hkeep]
    simp [hr]
  rw [Plate.release, Plate.remainingOf_of_split hres hr hone, hfilter]

end Entry

/-- A re-estimate that is granted stays within the budget (01 R9, R11). -/
theorem Plate.reestimate_of_le {pl : Plate} {tag estimate : Nat} (h : estimate ≤ pl.remainingOf tag + pl.remainder) :
    pl.reestimate tag estimate = some { pl with reservations := setRemaining pl.reservations tag estimate } :=
  if_pos h

theorem Plate.reestimate_of_lt {pl : Plate} {tag estimate : Nat} (h : pl.remainingOf tag + pl.remainder < estimate) :
    pl.reestimate tag estimate = none :=
  if_neg (Nat.not_le.2 h)

theorem Plate.remainder_def (pl : Plate) : pl.budget - pl.spent - pl.reserved = pl.remainder := rfl

/-- Settles O29: the accounts as the tables of R10 to R14 give them, an entry being the one of its tag. -/
theorem accountsFollowTheTable : Obligations.AccountsFollowTheTable := by
  unfold Obligations.AccountsFollowTheTable
  simp only [Plate.remainder_def]
  refine ⟨fun pl tag estimate hw => ⟨fun hle => ?_, fun hlt => ?_, ?_⟩, fun pl tag cost hw => ⟨?_, fun required => ?_⟩⟩
  · have hreserve := Plate.reserve_of_le hle tag
    refine ⟨_, hreserve, rfl, ?_, Plate.reserve_withinBudget hw hreserve⟩
    simp [Plate.reserved]
  · exact Plate.reserve_of_lt hlt tag
  · intro before r after hres hr hone
    have hof := Plate.remainingOf_of_split hres hr hone
    refine ⟨fun hle => ?_, fun hlt => ?_, Plate.release_of_split hres hr hone⟩
    · have hre := Plate.reestimate_of_le (pl := pl) (tag := tag) (estimate := estimate) (by rw [hof]; exact hle)
      rw [Plate.setRemaining_of_split hres hr hone] at hre
      exact ⟨_, hre, rfl, (Plate.Settled.reestimate hre).within hw⟩
    · exact Plate.reestimate_of_lt (by rw [hof]; exact hlt)
  · intro before r after hres hr hone
    have hof := Plate.remainingOf_of_split hres hr hone
    have hset := Plate.setRemaining_of_split hres hr hone
    refine ⟨fun hst => ⟨fun hle => ?_, fun hlt hle => ?_, fun hlt hgt => ?_⟩, fun hst => ?_⟩
    · rw [Plate.programCharge, if_neg (by simp [hst]), hof, if_pos hle, hset]
    · rw [Plate.programCharge, if_neg (by simp [hst]), hof, if_neg (by omega), if_pos hle, hset]
    · rw [Plate.programCharge, if_neg (by simp [hst]), hof, if_neg (by omega), if_neg (Nat.not_le.2 hgt)]
    · rw [Plate.programCharge, if_pos hst]
  · refine ⟨fun hst hle => ?_, fun hst hlt => ?_, fun hst => ?_⟩
    · rw [Plate.unreservedCharge, if_neg (by simp [hst]), if_pos hle]
    · rw [Plate.unreservedCharge, if_neg (by simp [hst]), if_neg (Nat.not_le.2 hlt)]
    · rw [Plate.unreservedCharge, if_pos hst]

/-! ### The lamp timer (04 R89) -/

theorem exec_lampTimerExpiry {s : State} {c : ExposureContext} {us : Nat} (hu : s.unit.state = .exposing)
    (ht : s.unit.timer = .lamp us) (hc : s.unit.context = some c) : exec .lampTimerExpiry s =
      .next (if c.kind = .margin then (s.fresh.lampEnds c).regPhase .readout else s.fresh.lampEnds c) := by
  simp only [exec, execLampTimerExpiry, hu, ht, hc]
  rfl

/-- Settles O44, by whether the work is a margin's. -/
theorem lampTimerEndsExposure : Obligations.LampTimerEndsExposure := by
  unfold Obligations.LampTimerEndsExposure
  intro s c us hu ht hc
  refine ⟨_, exec_lampTimerExpiry hu ht hc, ?_⟩
  by_cases hk : c.kind = .margin
  · rw [if_pos hk]
    exact ⟨rfl, rfl, rfl, fun _ => rfl, fun hne => absurd hk hne, rfl⟩
  · rw [if_neg hk]
    exact ⟨rfl, rfl, rfl, fun h => absurd h hk, fun _ => rfl, rfl⟩

/-! ### Commands of one port (09 R199) -/

/-- An operation that changes one port, and what was sent, alone. -/
def Touches (p : Port) (s t : State) : Prop := OnlyPorts s t ∧ OtherPortsKept p s t

theorem Touches.setPort (s : State) (p : Port) (q : PortState) : Touches p s (s.setPort p q) :=
  ⟨by cases p <;> rfl, fun _ hr => State.port_setPort_of_ne _ _ hr⟩

theorem Touches.fresh (p : Port) (s : State) : Touches p s s.fresh := ⟨rfl, fun _ _ => State.fresh_port _ _⟩

theorem Touches.trans {p : Port} {s t u : State} (h : Touches p s t) (k : Touches p t u) : Touches p s u := by
  obtain ⟨hst, hs⟩ := h
  obtain ⟨htu, ht⟩ := k
  refine ⟨?_, fun r hr => (ht r hr).trans (hs r hr)⟩
  rw [OnlyPorts, htu, hst]

theorem Touches.taken (p : Port) (s : State) (rest : List Message) : Touches p s (s.taken p rest) :=
  (Touches.fresh p s).trans (.setPort _ _ _)

theorem Touches.place (s : State) (p : Port) (e : OutEntry) : Touches p s (s.place p e) := .setPort _ _ _

/-- A command that takes a message touches its port alone where its action does. -/
theorem Touches.taking {s t : State} {p : Port} {act : Message → Request → State → Option State}
    (hact : ∀ m r s1 s2, act m r s1 = some s2 → Touches p s1 s2)
    (h : (Host.Outcome.next (s.taking p act) : Host.Outcome State Fault Refusal) = .next t) : Touches p s t := by
  cases h
  rcases s.taking_cases p act with e | ⟨m, rest, r, -, e⟩
  · rw [e]; exact .fresh p s
  · exact (Touches.taken p s rest).trans (hact _ _ _ _ e)

/-- Nothing is taken where the port may take no message, where it has none, or where its oldest is another command's
(09 R199, R206). -/
theorem State.taking_nothing {s : State} {p : Port} {act : Message → Request → State → Option State}
    {own : Taken → Prop} (hact : ∀ m r s1 s2, act m r s1 = some s2 → own (.request r))
    (h : ((s.port p).link = .up ∧ 64 ≤ (s.port p).outbound.length) ∨ (s.port p).inbound = [] ∨
      (∃ m rest, (s.port p).inbound = m :: rest ∧ ¬ own (readMessage m))) : s.taking p act = s.fresh := by
  rcases s.taking_cases p act with e | ⟨m, rest, r, ⟨⟨hmay, hq⟩, hread⟩, e⟩
  · exact e
  · exfalso
    rcases h with ⟨hup, hfull⟩ | hempty | ⟨m', rest', hq', hno⟩
    · have := PortState.outbound_lt_of_mayTake hmay (by simp [hup])
      omega
    · rw [hempty] at hq; cases hq
    · rw [hq] at hq'
      cases hq'
      rw [hread] at hno
      exact hno (hact _ _ _ _ e)

/-- MALFORMED is the command of messages that are none of the requests and posts (09 R201). -/
theorem exec_malformed_nothing {s : State} {p : Port}
    (h : ((s.port p).link = .up ∧ 64 ≤ (s.port p).outbound.length) ∨ (s.port p).inbound = [] ∨
      (∃ m rest, (s.port p).inbound = m :: rest ∧
        ¬ (readMessage m = .malformedRequest ∨ readMessage m = .malformedPost ∨ readMessage m = .discarded))) :
    exec (.malformed p) s = .next s.fresh := by
  simp only [exec, execMalformed]
  split
  · rfl
  · rename_i m s1 htake
    obtain ⟨rest, ⟨hmay, hq⟩, rfl⟩ := State.take_eq_some htake
    rcases h with ⟨hup, hfull⟩ | hempty | ⟨m', rest', hq', hno⟩
    · have := PortState.outbound_lt_of_mayTake hmay (by simp [hup])
      omega
    · rw [hempty] at hq; cases hq
    · rw [hq] at hq'
      cases hq'
      split
      · exact absurd (.inl ‹_›) hno
      · exact absurd (.inr (.inl ‹_›)) hno
      · exact absurd (.inr (.inr ‹_›)) hno
      · rfl

theorem exec_malformed_touches {s t : State} {p : Port} (h : exec (.malformed p) s = .next t) : Touches p s t := by
  simp only [exec, execMalformed] at h
  split at h
  · cases h; exact .fresh p s
  · rename_i m s1 htake
    obtain ⟨rest, -, rfl⟩ := State.take_eq_some htake
    have htaken := Touches.taken p s rest
    split at h <;> cases h
    · exact htaken.trans (.place _ _ _)
    · exact htaken.trans (.place _ _ _)
    · exact htaken
    · exact .fresh p s

/-- Settles O14: a message taken, a reply placed and a field of the port set touch the port alone; and each command's own
text takes the messages of its kind. -/
theorem portRequestsTouchOnlyTheirPort : Obligations.PortRequestsTouchOnlyTheirPort := by
  unfold Obligations.PortRequestsTouchOnlyTheirPort
  refine ⟨fun c p s t hc h => ?_, fun s p c own hmem hidle => ?_⟩
  · change Touches p s t
    rcases hc with rfl | rfl | rfl | rfl | rfl | rfl | ⟨f, rfl⟩
    · refine .taking (fun m r s1 s2 hact => ?_) h
      cases r <;> cases hact
      unfold State.readPlate State.busyPlain
      repeat' split
      all_goals exact .place _ _ _
    · refine .taking (fun m r s1 s2 hact => ?_) h
      cases r <;> cases hact
      exact .place _ _ _
    · refine .taking (fun m r s1 s2 hact => ?_) h
      cases r <;> cases hact
      exact .place _ _ _
    · refine .taking (fun m r s1 s2 hact => ?_) h
      cases r <;> cases hact
      exact (Touches.setPort _ _ _).trans (.place _ _ _)
    · refine .taking (fun m r s1 s2 hact => ?_) h
      cases r <;> cases hact
      exact (Touches.setPort _ _ _).trans (.place _ _ _)
    · exact exec_malformed_touches h
    · simp only [exec, execMessageArrival] at h
      split at h <;> cases h
      · exact (Touches.fresh p s).trans (.setPort _ _ _)
      · exact .fresh p s
  · simp only [List.mem_cons, List.not_mem_nil, or_false, Prod.mk.injEq] at hmem
    rcases hmem with ⟨rfl, hown⟩ | ⟨rfl, hown⟩ | ⟨rfl, hown⟩ | ⟨rfl, hown⟩ | ⟨rfl, hown⟩ | ⟨rfl, hown⟩ | ⟨rfl, hown⟩ |
      ⟨rfl, hown⟩ | ⟨rfl, hown⟩ | ⟨rfl, hown⟩ | ⟨rfl, hown⟩ | ⟨rfl, hown⟩ | ⟨rfl, hown⟩ | ⟨rfl, hown⟩ | ⟨rfl, hown⟩ |
      ⟨rfl, hown⟩ | ⟨rfl, hown⟩ | ⟨rfl, hown⟩ | ⟨rfl, hown⟩ | ⟨rfl, hown⟩ | ⟨rfl, hown⟩ | ⟨rfl, hown⟩ | ⟨rfl, hown⟩ |
      ⟨rfl, hown⟩ | ⟨rfl, hown⟩
    case inr.inr.inr.inr.inr.inr.inr.inr.inr.inr.inr.inr.inr.inr.inr.inr.inr.inr.inr.inr.inr.inr.inr.inr =>
      exact exec_malformed_nothing (by simpa only [hown] using hidle)
    all_goals
      refine congrArg Host.Outcome.next (State.taking_nothing (own := own) (fun m r s1 s2 hact => ?_) hidle)
      cases r <;> cases hact
      simp [hown, -Bool.exists_bool]

end Sys2Proof.Machine
end

section
/-! The follow-up of an event (02 R32, 07 R154, 04 R80), the links that come up and go down (09 R195, R205, R207), and the
arrival of a message (09 R197, R198). -/

namespace Sys2Proof.Machine

/-! ### The follow-up of an event -/

theorem State.examineOnChange_of_same {s0 s : State}
    (h : s.stageView = s0.stageView ∧ s.headProgram.map (·.tag) = s0.headProgram.map (·.tag)) :
    s0.examineOnChange s = s := if_pos h

theorem State.examineOnChange_of_changed {s0 s : State}
    (h : ¬ (s.stageView = s0.stageView ∧ s.headProgram.map (·.tag) = s0.headProgram.map (·.tag))) :
    s0.examineOnChange s = s.examine := if_neg h

theorem State.requestAllocation_of_not_asking {s : State}
    (h : ∀ g, s.running = some g → g.captureStep ≠ some .storeWait) : s.requestAllocation = s := by
  unfold State.requestAllocation
  split
  · rfl
  · rename_i g hg
    split
    · rfl
    · rw [if_neg (fun hh => h g hg hh.1)]

theorem State.grantWaiting_of_none {s : State} (h : s.allocWaiting = none) : s.grantWaiting = s := by
  unfold State.grantWaiting
  rw [h]

/-- No request waits and none is due (03 R62). -/
theorem State.tryAllocation_idle {s : State} (hnone : s.allocWaiting = none)
    (h : ∀ g, s.running = some g → g.captureStep ≠ some .storeWait) : s.tryAllocation = s := by
  rw [State.tryAllocation, State.requestAllocation_of_not_asking h, State.grantWaiting_of_none hnone]

theorem State.handTile_of_not_waiting {s : State} (h : ∀ g, s.running = some g → g.captureStep ≠ some .unitWait) :
    s.handTile = s := by
  unfold State.handTile
  split
  · rename_i g c hg _
    split
    · rw [if_neg (fun hh => h g hg hh.1)]
    · rfl
  · rfl

theorem State.handMargin_of_not_waiting {s : State} (h : ∀ r, s.registration = some r → r.phase ≠ .waitUnit) :
    s.handMargin = s := by
  unfold State.handMargin
  split
  · rename_i r c hr _
    rw [if_neg (fun hh => h r hr hh.1)]
  · rfl

/-- A unit that is not IDLE is left as it is, with what was sent and the registration. -/
def LeavesUnit (s t : State) : Prop :=
  s.unit.state ≠ .idle → t.unit = s.unit ∧ t.sent = s.sent ∧ t.registration = s.registration

theorem LeavesUnit.same {s t : State} (hunit : t.unit = s.unit) (hsent : t.sent = s.sent)
    (hreg : t.registration = s.registration) : LeavesUnit s t := fun _ => ⟨hunit, hsent, hreg⟩

theorem LeavesUnit.refl (s : State) : LeavesUnit s s := .same rfl rfl rfl

theorem LeavesUnit.trans {s t u : State} (h : LeavesUnit s t) (k : LeavesUnit t u) : LeavesUnit s u := by
  intro hbusy
  obtain ⟨hunit, hsent, hreg⟩ := h hbusy
  obtain ⟨kunit, ksent, kreg⟩ := k (by rwa [hunit])
  exact ⟨kunit.trans hunit, ksent.trans hsent, kreg.trans hreg⟩

theorem LeavesUnit.tryAllocation (s : State) : LeavesUnit s s.tryAllocation := by
  have hgrant : ∀ u : State, LeavesUnit u u.grantWaiting := by
    intro u
    unfold State.grantWaiting
    split
    · exact .refl _
    · split
      · intro hbusy
        rw [State.handTile_busy (by simpa using hbusy)]
        simp
      · exact .refl _
  exact (LeavesUnit.same (t := s.requestAllocation) (by simp) (by simp) (by simp)).trans (hgrant _)

theorem LeavesUnit.startHead (s : State) (g : Program) (pl : Plate) : LeavesUnit s (s.startHead g pl).2 := by
  have hend : ∀ o k, LeavesUnit s (s.endAtStart g.tag o k) := fun o k => .same (by simp) (by simp) (by simp)
  unfold State.startHead
  repeat' split
  · exact hend _ _
  · exact hend _ _
  · exact hend _ _
  · exact hend _ _
  · refine LeavesUnit.trans ?_ (.tryAllocation _)
    apply LeavesUnit.same <;> simp

theorem LeavesUnit.examineUpTo (s : State) (k : Nat) : LeavesUnit s (s.examineUpTo k) := by
  induction k generalizing s with
  | zero => exact .refl _
  | succ k ih =>
    have hwaits : ∀ tag st, LeavesUnit s (s.headWaits tag st) := fun _ _ => .same (by simp) (by simp) (by simp)
    have hoff : ∀ g pl, LeavesUnit s (s.examineOffStage g pl) := fun _ _ => .same (by simp) (by simp) (by simp)
    unfold State.examineUpTo
    split
    · exact .refl _
    · split
      · exact .refl _
      · split
        · exact .refl _
        · split
          · dsimp only
            split
            · exact (LeavesUnit.startHead _ _ _).trans (ih _)
            · exact .startHead _ _ _
          · exact hwaits _ _
          · exact hwaits _ _
          · exact hwaits _ _
          · exact hoff _ _
          · exact hoff _ _

theorem LeavesUnit.settle (s0 s : State) : LeavesUnit s (s0.settle s) := by
  have hexamine : LeavesUnit s (s0.examineOnChange s) := by
    unfold State.examineOnChange
    split
    · exact .refl _
    · exact .examineUpTo _ _
  have hoffer : ∀ u : State, LeavesUnit u u.offerUnit := fun u hbusy => by
    rw [State.offerUnit_busy hbusy]
    exact ⟨rfl, rfl, rfl⟩
  exact hexamine.trans (.trans (.tryAllocation _) (hoffer _))

/-- Settles O48: the operations of the follow-up leave the accounts (`Settles`) and a busy unit (`LeavesUnit`), and each has
nothing to do where nothing waits for it. -/
theorem followUpLeavesTheRestAlone : Obligations.FollowUpLeavesTheRestAlone := by
  unfold Obligations.FollowUpLeavesTheRestAlone
  refine ⟨fun s0 s => ?_, fun s0 s => ?_, fun s => rfl⟩
  · refine ⟨by simp, by simp, by simp, by simp, by simp, by simp, by simp, by simp, fun i pl hp => ?_, fun hbusy => ?_,
      fun hbusy hview hhead hnone hsteps => ?_⟩
    · obtain ⟨pl', hp', hset⟩ := ((Settles.settle s s0).plates i).2 pl hp
      exact ⟨pl', hp', hset.sameBudget, hset.sameSpent, hset.keeps, hset.baseFog⟩
    · obtain ⟨hunit, hsent, hreg⟩ := LeavesUnit.settle s0 s hbusy
      exact ⟨hunit, by simp, hsent, hreg⟩
    · rw [State.settle, State.examineOnChange_of_same ⟨hview, hhead⟩, State.tryAllocation_idle hnone hsteps,
        State.offerUnit_busy hbusy]
  · intro same
    refine ⟨fun h => ?_, fun h => ?_, fun h hnone hsteps hphase => ?_, rfl⟩
    · rw [State.settle, State.examineOnChange_of_same h]
    · rw [State.settle, State.examineOnChange_of_changed h]
    · rw [State.settle, State.examineOnChange_of_same h, State.tryAllocation_idle hnone (fun g hg => (hsteps g hg).1),
        State.offerUnit, State.handTile_of_not_waiting (fun g hg => (hsteps g hg).2),
        State.handMargin_of_not_waiting hphase]

/-! ### Links (09 R195, R205, R207) -/

theorem exec_lock_down {s : State} {p : Port} (h : (s.port p).link = .down) :
    exec (.lock p) s = .next (s.fresh.serveFreed (s.fresh.setPort p (s.port p).comeUp) p) := by
  simp only [exec, execLock, if_pos h]

theorem exec_lossOfLock_up {s : State} {p : Port} (h : (s.port p).link = .up) : exec (.lossOfLock p) s =
    .next (((s.fresh.setPort p (s.port p).goDown).dropEntries p).endReadSilently p) := by
  simp only [exec, execLossOfLock, if_pos h]

/-- A link that is DOWN loses every entry placed (09 R206). -/
theorem State.port_place_of_down {s : State} {p : Port} (h : (s.port p).link = .down) (q : Port) (e : OutEntry) :
    (s.place q e).port p = s.port p := by
  by_cases hq : p = q
  · subst hq
    rw [State.place_of_not_canTake ((s.port p).canTake_false_iff.2 (.inl h))]
  · exact State.port_place_of_ne _ _ hq

/-- What ENTRY_READY leaves of a port whose link is DOWN: everything. -/
theorem State.entryTurnsReady_port_of_down {s : State} {p : Port} (h : (s.port p).link = .down) (id : TileId) :
    (s.entryTurnsReady id).port p = s.port p := by
  have hturn : (s.turnEntry id .ready).port p = s.port p := State.port_congr rfl p
  unfold State.entryTurnsReady
  split
  · split
    · unfold State.sendTileReady
      split
      · exact hturn
      · split
        · rw [State.port_place_of_down (by rwa [hturn]), hturn]
        · exact hturn
    · rfl
  · rfl

/-- Entries keep their ports when a WAITING one turns READY. -/
theorem State.entryTurnsReady_entries (s : State) (id : TileId) {e : PendingEntry}
    (he : e ∈ (s.entryTurnsReady id).entries) : ∃ e0 ∈ s.entries, e0.port = e.port := by
  have hturn : ∀ e ∈ (s.turnEntry id .ready).entries, ∃ e0 ∈ s.entries, e0.port = e.port := by
    intro e he
    obtain ⟨e0, he0, rfl⟩ := List.mem_map.1 he
    exact ⟨e0, he0, by split <;> rfl⟩
  unfold State.entryTurnsReady at he
  split at he
  · split at he
    · exact hturn e (by simpa using he)
    · exact ⟨e, he, rfl⟩
  · exact ⟨e, he, rfl⟩

/-- The state of a port after LOSS_OF_LOCK but for its read (09 R205): DOWN, and its pending entries gone. -/
def State.linkLost (s : State) (p : Port) : State := (s.fresh.setPort p (s.port p).goDown).dropEntries p

theorem State.linkLost_eq (s : State) (p : Port) : s.linkLost p =
    State.setPort { s.fresh with entries := s.entries.filter (fun e => decide (e.port ≠ p)) } p (s.port p).goDown := by
  cases p <;> rfl

theorem State.port_linkLost (s : State) (p : Port) : (s.linkLost p).port p = (s.port p).goDown := by
  rw [State.linkLost_eq, State.port_setPort_self]

/-- The read ends with its stream entry, on a link that is sending nothing (08 R191). -/
theorem PortState.removeStream_goDown (q : PortState) : { q.goDown.removeStream with read := none } =
    { q with link := .down, retry := [], sending := .idle, read := none
             outbound := q.outbound.filter (fun e => !e.isOpenStream) } := by
  simp only [PortState.removeStream, PortState.goDown]
  split
  · rename_i hentry
    cases hentry
  · rfl

theorem State.tile?_setPort (s : State) (p : Port) (q : PortState) (id : TileId) :
    (s.setPort p q).tile? id = s.tile? id := by
  simp [State.tile?]

/-! The silent end of a read (08 R191), by whether there is one and whether its tile has the port for reader. -/

section SilentEnd

variable {s : State} {p : Port}

theorem State.endReadSilently_none (hnone : (s.port p).read = none) : s.endReadSilently p = s := by
  simp only [State.endReadSilently, hnone]

variable {r : Read} (hread : (s.port p).read = some r)
include hread

theorem State.endReadSilently_released {t : TileEntry} (ht : s.tile? r.tile = some t)
    (hreader : t.reader = some (p, r.kind)) : s.endReadSilently p =
      (s.setPort p { (s.port p).removeStream with read := none }).releaseReader r.tile := by
  simp only [State.endReadSilently, hread, State.tile?_setPort, ht, if_pos hreader]

theorem State.endReadSilently_kept (hno : ∀ t, s.tile? r.tile = some t → t.reader ≠ some (p, r.kind)) :
    s.endReadSilently p = s.setPort p { (s.port p).removeStream with read := none } := by
  simp only [State.endReadSilently, hread, State.tile?_setPort]
  split
  · rw [if_neg (hno _ ‹_›)]
  · rfl

end SilentEnd

/-- The state in which the read of a port has ended at LOSS_OF_LOCK, its tile still having its reader. -/
def State.readLost (s : State) (p : Port) : State :=
  State.setPort { s.fresh with entries := s.entries.filter (fun e => decide (e.port ≠ p)) } p
    { s.port p with link := .down, retry := [], sending := .idle, read := none
                    outbound := (s.port p).outbound.filter (fun e => !e.isOpenStream) }

theorem State.readLost_eq (s : State) (p : Port) :
    (s.linkLost p).setPort p { ((s.linkLost p).port p).removeStream with read := none } = s.readLost p := by
  rw [State.port_linkLost, PortState.removeStream_goDown, State.linkLost_eq, State.setPort_setPort, State.readLost]

section LossOfLock

variable {s : State} {p : Port} (hup : (s.port p).link = .up)
include hup

theorem exec_lossOfLock_noRead (hnone : (s.port p).read = none) : exec (.lossOfLock p) s = .next
    (State.setPort { s.fresh with entries := s.entries.filter (fun e => decide (e.port ≠ p)) } p
      { s.port p with link := .down, retry := [], sending := .idle, read := none }) := by
  have hdown : ((s.linkLost p).port p).read = none := by rw [State.port_linkLost]; exact hnone
  rw [exec_lossOfLock_up hup, ← State.linkLost, State.endReadSilently_none hdown, State.linkLost_eq]
  simp only [PortState.goDown, hnone]

variable {r : Read} (hread : (s.port p).read = some r)
include hread

theorem exec_lossOfLock_released {t : TileEntry} (ht : s.tile? r.tile = some t)
    (hreader : t.reader = some (p, r.kind)) :
    exec (.lossOfLock p) s = .next ((s.readLost p).releaseReader r.tile) := by
  have hdown : ((s.linkLost p).port p).read = some r := by rw [State.port_linkLost]; exact hread
  have ht' : (s.linkLost p).tile? r.tile = some t := by rw [← ht]; simp [State.tile?, State.linkLost]
  rw [exec_lossOfLock_up hup, ← State.linkLost, State.endReadSilently_released hdown ht' hreader, State.readLost_eq]

theorem exec_lossOfLock_kept (hno : ∀ t, s.tile? r.tile = some t → t.reader ≠ some (p, r.kind)) :
    exec (.lossOfLock p) s = .next (s.readLost p) := by
  have hdown : ((s.linkLost p).port p).read = some r := by rw [State.port_linkLost]; exact hread
  have htile : (s.linkLost p).tile? r.tile = s.tile? r.tile := by simp [State.tile?, State.linkLost]
  rw [exec_lossOfLock_up hup, ← State.linkLost, State.endReadSilently_kept hdown (by rwa [htile]), State.readLost_eq]

end LossOfLock

theorem State.fresh_of_sent {s : State} (h : s.sent = []) : s.fresh = s := by
  rw [State.fresh, ← h]

/-- What stands of a port and of the tables once its link is lost (09 R205). -/
structure LostLink (s : State) (p : Port) (t : State) : Prop where
  link : (t.port p).link = .down
  retry : (t.port p).retry = []
  read : (t.port p).read = none
  sending : (t.port p).sending = .idle
  entries : ∀ e ∈ t.entries, e.port ≠ p
  inbound : (t.port p).inbound = (s.port p).inbound
  upCount : (t.port p).upCount = (s.port p).upCount
  windowBase : (t.port p).windowBase = (s.port p).windowBase
  windowLimit : (t.port p).windowLimit = (s.port p).windowLimit
  previewFlag : (t.port p).previewFlag = (s.port p).previewFlag
  plates : t.plates = s.plates
  programs : t.programs = s.programs

theorem LostLink.setPort (s : State) (p : Port) (l : List OutEntry) : LostLink s p
    (State.setPort { s.fresh with entries := s.entries.filter (fun e => decide (e.port ≠ p)) } p
      { s.port p with link := .down, retry := [], sending := .idle, read := none, outbound := l }) := by
  constructor <;> simp

/-- A reader released concerns the other ports alone. -/
theorem LostLink.releaseReader {s t : State} {p : Port} (h : LostLink s p t) (id : TileId) :
    LostLink s p (t.releaseReader id) := by
  have hport : (t.releaseReader id).port p = t.port p := by
    rw [State.releaseReader, State.entryTurnsReady_port_of_down (by simpa using h.link)]
    simp
  constructor
  case entries =>
    intro e he
    obtain ⟨e0, he0, hp⟩ := State.entryTurnsReady_entries _ _ he
    rw [← hp]
    exact h.entries e0 (by simpa using he0)
  case plates => rw [← h.plates]; simp
  case programs => rw [← h.programs]; simp
  all_goals rw [hport]
  · exact h.link
  · exact h.retry
  · exact h.read
  · exact h.sending
  · exact h.inbound
  · exact h.upCount
  · exact h.windowBase
  · exact h.windowLimit
  · exact h.previewFlag

theorem exec_lossOfLock_lost {s : State} {p : Port} (hup : (s.port p).link = .up) :
    ∃ t, exec (.lossOfLock p) s = .next t ∧ LostLink s p t := by
  have hlost : LostLink s p (s.readLost p) := .setPort s p _
  cases hread : (s.port p).read with
  | none => exact ⟨_, exec_lossOfLock_noRead hup hread, .setPort s p _⟩
  | some r =>
    by_cases hreader : ∃ t, s.tile? r.tile = some t ∧ t.reader = some (p, r.kind)
    · obtain ⟨t, ht, hreader⟩ := hreader
      exact ⟨_, exec_lossOfLock_released hup hread ht hreader, hlost.releaseReader _⟩
    · exact ⟨_, exec_lossOfLock_kept hup hread (fun t ht hr => hreader ⟨t, ht, hr⟩), hlost⟩

/-- Settles O16: LOCK serves the claims of the port; LOSS_OF_LOCK ends what the port has, and a reader released makes its
tile's WAITING entry READY, which a DOWN link does not hear of. -/
theorem linkGoesUpAndDown : Obligations.LinkGoesUpAndDown := by
  unfold Obligations.LinkGoesUpAndDown
  refine ⟨fun s p => ⟨fun hdown => ?_, fun hup => ?_⟩, fun s p => ⟨fun hup => ?_, fun hdown => ?_, fun hup => ?_⟩⟩
  · have hports := (Settles.serveFreed (s.fresh.setPort p (s.port p).comeUp) s.fresh p).ports p
    rw [State.port_setPort_self] at hports
    exact ⟨_, exec_lock_down hdown, rfl, hports.link, hports.upCount⟩
  · simp [exec, execLock, hup]
  · obtain ⟨t, ht, h⟩ := exec_lossOfLock_lost hup
    exact ⟨t, ht, h.link, h.retry, h.read, h.sending, h.entries, h.inbound, h.upCount, h.windowBase, h.windowLimit,
      h.previewFlag, h.plates, h.programs⟩
  · simp [exec, execLossOfLock, hdown]
  · intro u q
    refine ⟨fun hnone => exec_lossOfLock_noRead hup hnone, fun r hread => ?_⟩
    intro v
    refine ⟨fun t ht hreader => ?_, fun hno => exec_lossOfLock_kept hup hread hno⟩
    have hv : v.directory = s.directory := by simp [v, u]
    have hsent : v.sent = [] := by simp [v, u]
    rw [exec_lossOfLock_released hup hread ht hreader, ← hv]
    exact congrArg (fun w => Host.Outcome.next (State.entryTurnsReady w r.tile))
      (State.fresh_of_sent (s := v.modTile r.tile _) hsent).symm

/-! ### The arrival of a message (09 R197, R198) -/

theorem exec_messageArrival_accepted {s : State} {p : Port} {f : Frame} (hup : (s.port p).link = .up)
    (hf : frameAccepted f = true) :
    exec (.messageArrival p f) s = .next (s.fresh.setPort p ((s.port p).accept (frameMessage f))) := by
  simp only [exec, execMessageArrival, hup, hf, and_self, if_true]

theorem exec_messageArrival_discarded {s : State} {p : Port} {f : Frame}
    (h : (s.port p).link = .down ∨ frameAccepted f = false) : exec (.messageArrival p f) s = .next s.fresh := by
  simp only [exec, execMessageArrival]
  rw [if_neg]
  rintro ⟨hup, hf⟩
  rcases h with hdown | hbad
  · rw [hdown] at hup; cases hup
  · rw [hf] at hbad; cases hbad

/-- A byte of a frame given by numbers. -/
theorem octetByte_octetAt_bytes (l : List Byte) (i : Nat) : octetByte (octetAt (l.map .byte) i) = l.getD i 0 := by
  simp only [octetAt, List.getD_eq_getElem?_getD, List.getElem?_map]
  cases l[i]? <;> rfl

theorem map_octetByte_bytes (l : List Byte) : (l.map Octet.byte).map octetByte = l := by
  rw [List.map_map]
  exact List.map_id l

section FrameByNumbers

variable (bs : List Byte) (c0 c1 c2 c3 : Byte)

/-- A frame given by the bytes before its check and the four bytes of the check. -/
def frameOfBytes : Frame := { bytes := (bs ++ [c0, c1, c2, c3]).map .byte }

theorem octetByte_frameOfBytes {i : Nat} (hi : i < bs.length) :
    octetByte (octetAt (frameOfBytes bs c0 c1 c2 c3).bytes i) = bs.getD i 0 := by
  rw [frameOfBytes, octetByte_octetAt_bytes, List.getD_eq_getElem?_getD, List.getElem?_append_left hi,
    List.getD_eq_getElem?_getD]

theorem octetByte_frameOfBytes_check (i : Nat) :
    octetByte (octetAt (frameOfBytes bs c0 c1 c2 c3).bytes (bs.length + i)) = [c0, c1, c2, c3].getD i 0 := by
  rw [frameOfBytes, octetByte_octetAt_bytes, List.getD_eq_getElem?_getD,
    List.getElem?_append_right (Nat.le_add_right _ _), Nat.add_sub_cancel_left, List.getD_eq_getElem?_getD]

theorem u32At_frameOfBytes : u32At (frameOfBytes bs c0 c1 c2 c3).bytes bs.length =
    c0.toNat + 256 * (c1.toNat + 256 * (c2.toNat + 256 * c3.toNat)) := by
  have h0 := octetByte_frameOfBytes_check bs c0 c1 c2 c3 0
  rw [Nat.add_zero] at h0
  rw [u32At, h0, octetByte_frameOfBytes_check, octetByte_frameOfBytes_check, octetByte_frameOfBytes_check]
  simp [ofLeBytes]

/-- The bytes that the check is made over. -/
theorem take_frameOfBytes : ((frameOfBytes bs c0 c1 c2 c3).bytes.take bs.length).map octetByte = bs := by
  rw [frameOfBytes, ← List.map_take, map_octetByte_bytes, List.take_left]

variable (h8 : 8 ≤ bs.length)
include h8

theorem u16At_frameOfBytes {i : Nat} (hi : i < 7) : u16At (frameOfBytes bs c0 c1 c2 c3).bytes i =
    (bs.getD i 0).toNat + 256 * (bs.getD (i + 1) 0).toNat := by
  rw [u16At, octetByte_frameOfBytes _ _ _ _ _ (by omega), octetByte_frameOfBytes _ _ _ _ _ (by omega)]
  simp [ofLeBytes]

/-- The check of R197 on a frame given by numbers, byte by byte. -/
theorem frameAccepted_frameOfBytes {n : Nat} (hn : n = (bs.getD 4 0).toNat + 256 * (bs.getD 5 0).toNat) :
    frameAccepted (frameOfBytes bs c0 c1 c2 c3) = true ↔ bs.length = 8 + n ∧ n ≤ 8240 ∧
      c0.toNat + 256 * (c1.toNat + 256 * (c2.toNat + 256 * c3.toNat)) = (crc32 bs).toNat := by
  have hlen : framePayloadLength (frameOfBytes bs c0 c1 c2 c3) = n := by
    rw [framePayloadLength, u16At_frameOfBytes _ _ _ _ _ h8 (by omega), hn]
  have hbytes : (frameOfBytes bs c0 c1 c2 c3).bytes.length = bs.length + 4 := by simp [frameOfBytes]
  simp only [frameAccepted, frameCheck, hlen, hbytes, Bool.and_eq_true, decide_eq_true_eq, and_assoc]
  have hiff : bs.length + 4 = 8 + n + 4 ↔ bs.length = 8 + n := by omega
  rw [hiff]
  refine and_congr_right fun hl => and_congr_right fun _ => ?_
  rw [← hl, u32At_frameOfBytes, take_frameOfBytes]

theorem frameMessage_frameOfBytes {n : Nat} (hn : n = (bs.getD 4 0).toNat + 256 * (bs.getD 5 0).toNat)
    (hlen : bs.length = 8 + n) : frameMessage (frameOfBytes bs c0 c1 c2 c3) =
      { kind := .byte (bs.getD 0 0), code := .byte (bs.getD 1 0)
        tag := BitVec.ofNat 16 ((bs.getD 2 0).toNat + 256 * (bs.getD 3 0).toNat)
        status := BitVec.ofNat 16 ((bs.getD 6 0).toNat + 256 * (bs.getD 7 0).toNat)
        payload := (bs.drop 8).map .byte } := by
  have hoctet : ∀ i, i < bs.length → octetAt (frameOfBytes bs c0 c1 c2 c3).bytes i = .byte (bs.getD i 0) := by
    intro i hi
    simp [octetAt, frameOfBytes, List.getD_eq_getElem?_getD, List.getElem?_append_left, hi]
  have hpayload : framePayloadLength (frameOfBytes bs c0 c1 c2 c3) = n := by
    rw [framePayloadLength, u16At_frameOfBytes _ _ _ _ _ h8 (by omega), hn]
  have hdrop : ((frameOfBytes bs c0 c1 c2 c3).bytes.drop 8).take n = (bs.drop 8).map .byte := by
    rw [frameOfBytes, ← List.map_drop, ← List.map_take, List.drop_append_of_le_length h8,
      List.take_left' (by rw [List.length_drop]; omega)]
  rw [frameMessage, hoctet 0 (by omega), hoctet 1 (by omega), u16At_frameOfBytes _ _ _ _ _ h8 (by omega),
    u16At_frameOfBytes _ _ _ _ _ h8 (by omega), hpayload, hdrop]

end FrameByNumbers

/-- Settles O17: the queue, the retry list or nothing takes the message; a frame given by numbers is judged byte by byte. -/
theorem arrivalQueuesRefusesOrDiscards : Obligations.ArrivalQueuesRefusesOrDiscards := by
  unfold Obligations.ArrivalQueuesRefusesOrDiscards
  refine ⟨fun s p f => ⟨fun hup hf hroom => ?_, fun hup hf hfull hretry => ?_, fun hup hf hfull hretry => ?_,
    exec_messageArrival_discarded⟩, fun bs c0 c1 c2 c3 h8 => ?_, Tests.test_crc⟩
  · rw [exec_messageArrival_accepted hup hf, PortState.accept, if_pos hroom]
  · refine ⟨_, exec_messageArrival_accepted hup hf, ?_⟩
    have haccept : ∀ m, (s.port p).accept m = PortState.beginSending { s.port p with
        retry := (s.port p).retry ++ [{ tag := m.tag, code := m.code, kind := m.kind }] } := fun m => by
      rw [PortState.accept, if_neg (by omega), if_pos hretry]
    rw [haccept]
    obtain ⟨honly, hother⟩ := (Touches.fresh p s).trans (.setPort s.fresh p _)
    exact ⟨by simp, by simp, by simp, honly, hother⟩
  · have haccept : (s.port p).accept (frameMessage f) = s.port p := by
      rw [PortState.accept, if_neg (by omega), if_neg (by omega)]
    rw [exec_messageArrival_accepted hup hf, haccept, ← State.fresh_port, State.setPort_port]
  · intro f n
    have hiff := frameAccepted_frameOfBytes bs c0 c1 c2 c3 h8 (n := n) rfl
    exact ⟨hiff, fun hf => frameMessage_frameOfBytes bs c0 c1 c2 c3 h8 rfl (hiff.1 hf).1⟩

end Sys2Proof.Machine
end

section
/-! Placements, removals, and registrations from their start to their end. -/

namespace Sys2Proof.Machine

/-! ### Abandoned work (04 R97) -/

theorem State.abandon_eq (s : State) :
    s.abandon = { s with unit := s.abandon.unit, lamp := s.abandon.lamp, sent := s.abandon.sent } := by
  unfold State.abandon
  repeat' split
  all_goals rfl

section Abandon

variable {s : State} {c : ExposureContext} (hc : s.unit.context = some c)
include hc

theorem State.abandon_moving (h : s.unit.state = .moving) : s.abandon = s.unitIdle := by
  simp only [State.abandon, h, hc]

theorem State.abandon_exposing (h : s.unit.state = .exposing) : s.abandon = s.stopTake.unitIdle := by
  simp only [State.abandon, h, hc]

theorem State.abandon_readout_frame (h : s.unit.state = .readout) (hk : c.kind = .calDark ∨ c.kind = .calLight) :
    s.abandon = s.unitIdle := by
  rcases hk with hk | hk <;> simp only [State.abandon, h, hc, hk]

theorem State.abandon_readout_margin (h : s.unit.state = .readout) (hk : c.kind = .margin) :
    s.abandon = s.modContext (fun c => { c with disposal := true }) := by
  simp only [State.abandon, h, hc, hk]

theorem State.abandon_readout_tile {id : TileId} (h : s.unit.state = .readout) (hk : c.kind = .tile id) :
    s.abandon = s.modContext (fun c => { c with disposal := true }) := by
  simp only [State.abandon, h, hc, hk]

theorem State.holdsMargin_of_context (hk : c.kind = .margin) (hd : c.disposal = false) : s.holdsMargin = true := by
  simp [State.holdsMargin, hc, hk, hd]

end Abandon

/-! ### PLATE_PLACED (01 R21, R22) -/

section Placed

variable {s : State} {slot : Nat} {pl : Plate} (p : Port) (m : Message)

theorem State.platePlaced_free (h : s.plate slot = none) :
    s.platePlaced p m slot = s.place p (postErrorTo m .unknownPlate slot) := by
  simp only [State.platePlaced, h]

theorem State.platePlaced_onStage (h : s.plate slot = some pl) (hon : pl.state.onStage = true) :
    s.platePlaced p m slot = s := by
  simp only [State.platePlaced, h, if_pos hon]

theorem State.platePlaced_conflict (h : s.plate slot = some pl) (hoff : pl.state.onStage = false)
    (hocc : s.occupant ≠ none) : s.platePlaced p m slot = s.place p (postErrorTo m .stageConflict slot) := by
  simp [State.platePlaced, h, hoff, hocc]

theorem State.platePlaced_accepted (h : s.plate slot = some pl) (hoff : pl.state.onStage = false)
    (hocc : s.occupant = none) : s.platePlaced p m slot = s.acceptPlacement slot pl := by
  simp [State.platePlaced, h, hoff, hocc]

theorem State.acceptPlacement_auto (hauto : s.settings.autoRegistration = true) : s.acceptPlacement slot pl =
    s.settle (((s.setPlate slot (some { pl with state := .registering, noticePending := none
      })).interruptCalibration).startRegistration slot none) := by
  simp [State.acceptPlacement, hauto, Plate.placed]

theorem State.acceptPlacement_manual (hauto : s.settings.autoRegistration = false) : s.acceptPlacement slot pl =
    s.settle ((s.setPlate slot (some { pl with state := .placed, noticePending := none })).interruptCalibration) := by
  simp [State.acceptPlacement, hauto, Plate.placed]

end Placed

@[simp] theorem State.taken_settings (s : State) (p : Port) (rest : List Message) :
    (s.taken p rest).settings = s.settings := by simp

@[simp] theorem State.taken_occupant (s : State) (p : Port) (rest : List Message) :
    (s.taken p rest).occupant = s.occupant := by simp

/-- Settles O24, by the rows of R21 and whether plates register by themselves. -/
theorem placementIsAcceptedOrAnswered : Obligations.PlacementIsAcceptedOrAnswered := by
  unfold Obligations.PlacementIsAcceptedOrAnswered
  intro s p m rest slot hasks u
  have hplate : u.plate slot = s.plate slot := State.plate_taken _ _ _ _
  have hexec : exec (.platePlaced p) s = .next (u.platePlaced p m slot) :=
    exec_command_of_asks (r := .platePlaced slot) hasks
  rw [hexec]
  refine ⟨fun h => congrArg _ (State.platePlaced_free p m (hplate.trans h)), fun pl h => ⟨fun hon => ?_, fun hoff => ?_⟩⟩
  · exact congrArg _ (State.platePlaced_onStage p m (hplate.trans h) ((PlateState.onStage_iff _).2 hon))
  · have hoff := (PlateState.onStage_eq_false_iff _).2 hoff
    have hocc : u.occupant = s.occupant := State.taken_occupant _ _ _
    have hset : u.settings = s.settings := State.taken_settings _ _ _
    refine ⟨fun h' => ?_, fun h' hauto => ?_, fun h' hauto => ?_⟩
    · exact congrArg _ (State.platePlaced_conflict p m (hplate.trans h) hoff (by rwa [hocc]))
    · rw [State.platePlaced_accepted p m (hplate.trans h) hoff (hocc.trans h'), State.acceptPlacement_auto (by rwa [hset])]
    · rw [State.platePlaced_accepted p m (hplate.trans h) hoff (hocc.trans h'),
        State.acceptPlacement_manual (by rwa [hset])]

/-! ### PLATE_REMOVED (01 R23, R24) -/

section Removed

variable {s : State} {slot : Nat} {pl : Plate} (p : Port) (m : Message)

theorem State.plateRemoved_free (h : s.plate slot = none) :
    s.plateRemoved p m slot = s.place p (postErrorTo m .notOnStage slot) := by
  simp only [State.plateRemoved, h]

theorem State.plateRemoved_offStage (h : s.plate slot = some pl) (hoff : pl.state.onStage = false) :
    s.plateRemoved p m slot = s.place p (postErrorTo m .notOnStage slot) := by
  simp [State.plateRemoved, h, hoff]

theorem State.plateRemoved_ordinary (h : s.plate slot = some pl) (hon : pl.state.onStage = true)
    (hord : pl.forcedRemoval = false) : s.plateRemoved p m slot = s.settle (s.setPlate slot (some pl.removed)) := by
  simp [State.plateRemoved, h, hon, hord]

theorem State.plateRemoved_forced (h : s.plate slot = some pl) (hon : pl.state.onStage = true)
    (hforced : pl.forcedRemoval = true) : s.plateRemoved p m slot =
      s.settle (((s.setPlate slot (some pl.removed)).abortFor slot pl.removed).losePlate slot) := by
  simp [State.plateRemoved, h, hon, hforced]

end Removed

/-- What a forced removal does to the work of a registration in the unit's hands (02 R46, 04 R97). -/
def State.marginGivenUp (s : State) (r : Registration) : State :=
  { (if (r.phase = .moving ∨ r.phase = .exposing ∨ r.phase = .readout) ∧ s.holdsMargin = true then s.abandon else s) with
    registration := none }

theorem State.abortRegistration_eq (s : State) (r : Registration) (pl : Plate) :
    s.abortRegistration r pl = (s.marginGivenUp r).sendRegDone r pl .aborted none 0 := by
  unfold State.abortRegistration State.marginGivenUp
  cases r.phase <;> simp

theorem State.marginGivenUp_eq (s : State) (r : Registration) : s.marginGivenUp r =
    { s with registration := none, unit := (s.marginGivenUp r).unit, lamp := (s.marginGivenUp r).lamp
             sent := (s.marginGivenUp r).sent } := by
  unfold State.marginGivenUp
  split
  · rw [State.abandon_eq]
  · rfl

section GivenUp

variable {s : State} {r : Registration} {c : ExposureContext}

theorem State.marginGivenUp_outside (h : r.phase = .waitUnit ∨ r.phase = .measuring) :
    s.marginGivenUp r = { s with registration := none } := by
  rcases h with h | h <;> simp [State.marginGivenUp, h]

variable (hph : r.phase = .moving ∨ r.phase = .exposing ∨ r.phase = .readout) (hc : s.unit.context = some c)
  (hk : c.kind = .margin) (hd : c.disposal = false)
include hph hc hk hd

theorem State.marginGivenUp_inside : s.marginGivenUp r = { s.abandon with registration := none } := by
  rw [State.marginGivenUp, if_pos ⟨hph, State.holdsMargin_of_context hc hk hd⟩]

end GivenUp

section Lost

variable {s : State} {slot : Nat} {g : Program}

theorem State.losePlate_of_no_running (h : ∀ g, s.running = some g → g.content.slot ≠ slot) : s.losePlate slot = s := by
  unfold State.losePlate
  split
  next => rfl
  next g hg => rw [if_neg (h g hg)]

theorem State.losePlate_of_running (hg : s.running = some g) (hslot : g.content.slot = slot) :
    s.losePlate slot = (s.fixOutcome g.tag .plateLost).giveUpTile g true := by
  simp only [State.losePlate, hg, if_pos hslot]

end Lost

/-- Settles O25: the rows of R23 and R24, the aborted registration by the state of the unit, and the lost program. -/
theorem removalIsOrdinaryOrForced : Obligations.RemovalIsOrdinaryOrForced := by
  unfold Obligations.RemovalIsOrdinaryOrForced
  refine ⟨fun s p m rest slot hasks => ?_, fun s slot pl r => ⟨fun h => ?_, fun h hne => ?_, fun h hslot => ?_⟩,
    fun s slot => ⟨State.losePlate_of_no_running, fun g hg hslot => State.losePlate_of_running hg hslot⟩⟩
  · intro u notOnStage
    have hplate : u.plate slot = s.plate slot := State.plate_taken _ _ _ _
    have hexec : exec (.plateRemoved p) s = .next (u.plateRemoved p m slot) :=
      exec_command_of_asks (r := .plateRemoved slot) hasks
    rw [hexec]
    refine ⟨fun h => congrArg _ (State.plateRemoved_free p m (hplate.trans h)), fun pl h => ?_⟩
    intro v
    refine ⟨fun hoff => ?_, fun hord => ?_, fun hon hhold => ?_⟩
    · exact congrArg _ (State.plateRemoved_offStage p m (hplate.trans h) ((PlateState.onStage_eq_false_iff _).2 hoff))
    · refine congrArg _ (State.plateRemoved_ordinary p m (hplate.trans h) ((PlateState.onStage_iff _).2 ?_) ?_)
      · tauto
      · rcases hord with hst | ⟨-, hno⟩
        · simp [Plate.forcedRemoval, hst]
        · simp [Plate.forcedRemoval, hno]
    · refine congrArg _ (State.plateRemoved_forced p m (hplate.trans h) ((PlateState.onStage_iff _).2 ?_) ?_)
      · tauto
      · rcases hon with hst | hst | hst <;> simp [Plate.forcedRemoval, hst, hhold]
  · simp only [State.abortFor, h]
  · simp only [State.abortFor, h, if_neg hne]
  · refine ⟨s.marginGivenUp r, ?_, s.marginGivenUp_eq r, fun hph => ?_, fun c hph hc hk hd => ?_⟩
    · simp only [State.abortFor, h, if_pos hslot, State.abortRegistration_eq]
    · rw [State.marginGivenUp_outside hph]
      exact ⟨rfl, rfl, rfl⟩
    · rw [State.marginGivenUp_inside hph hc hk hd]
      refine ⟨fun hst => ?_, fun hst => ?_, fun hst => ?_, fun hst => ?_⟩
      · rcases hst with hst | hst
        · rw [State.abandon_moving hc hst]
          exact ⟨rfl, rfl⟩
        · rw [State.abandon_exposing hc hst]
          exact ⟨rfl, rfl⟩
      · rw [State.abandon_moving hc hst]
        rfl
      · rw [State.abandon_exposing hc hst]
        rfl
      · rw [State.abandon_readout_margin hc hst hk]
        simp [State.modContext, hc]

/-! ### REGISTER (02 R44) -/

section Register

variable {s : State} {slot : Nat} {pl : Plate} (p : Port) (m : Message)

theorem State.register_free (h : s.plate slot = none) : s.register p m slot = s.reply p m .unknownPlate := by
  simp only [State.register, h]

theorem State.register_offStage (h : s.plate slot = some pl) (hoff : pl.state = .racked ∨ pl.state = .called) :
    s.register p m slot = s.reply p m .notOnStage := by
  simp [State.register, h, (PlateState.onStage_eq_false_iff _).2 hoff]

theorem State.register_releasing (h : s.plate slot = some pl) (hst : pl.state = .releasing) :
    s.register p m slot = s.reply p m .releasing := by
  simp [State.register, h, hst, PlateState.onStage]

theorem State.register_registering (h : s.plate slot = some pl) (hst : pl.state = .registering) :
    s.register p m slot = s.busyPlain p m := by
  simp [State.register, h, hst, PlateState.onStage]

theorem State.register_running (h : s.plate slot = some pl) (hst : pl.state = .placed ∨ pl.state = .staged)
    (hrun : s.runningFor slot = true) : s.register p m slot = s.busyPlain p m := by
  rcases hst with hst | hst <;> simp [State.register, h, hst, hrun, PlateState.onStage]

theorem State.register_accepted (h : s.plate slot = some pl) (hst : pl.state = .placed ∨ pl.state = .staged)
    (hrun : s.runningFor slot = false) : s.register p m slot = s.acceptRegister p m slot pl := by
  rcases hst with hst | hst <;> simp [State.register, h, hst, hrun, PlateState.onStage]

end Register

/-- No RUNNING program of the queue is for the slot's plate. -/
theorem State.runningFor_eq_false {s : State} {slot : Nat}
    (h : ∀ g ∈ s.programs, g.state = .running → g.content.slot ≠ slot) : s.runningFor slot = false := by
  unfold State.runningFor
  split
  next g hg =>
    have hmem := List.mem_of_find?_eq_some hg
    have hrun := List.find?_some hg
    simpa using h g hmem (by simpa using hrun)
  next => rfl

/-- Settles O30, by the rows of R44. -/
theorem registerStartsOrRefuses : Obligations.RegisterStartsOrRefuses := by
  unfold Obligations.RegisterStartsOrRefuses
  intro s p m rest slot hasks u
  have hplate : u.plate slot = s.plate slot := State.plate_taken _ _ _ _
  have hexec : exec (.register p) s = .next (u.register p m slot) := exec_command_of_asks (r := .register slot) hasks
  rw [hexec]
  refine ⟨fun h => congrArg _ (State.register_free p m (hplate.trans h)),
    fun pl h => ⟨fun hst => ?_, fun hst => ?_, fun hst => ?_, fun hst => ⟨fun g hg hslot => ?_, fun hno => ?_⟩⟩⟩
  · exact congrArg _ (State.register_offStage p m (hplate.trans h) hst)
  · exact congrArg _ (State.register_releasing p m (hplate.trans h) hst)
  · exact congrArg _ (State.register_registering p m (hplate.trans h) hst)
  · have hrun : u.runningFor slot = true := by simp [State.runningFor, u, hg, hslot]
    exact congrArg _ (State.register_running p m (hplate.trans h) hst hrun)
  · have hrun : u.runningFor slot = false := State.runningFor_eq_false (by simpa [u] using hno)
    exact congrArg _ (State.register_accepted p m (hplate.trans h) hst hrun)

/-! ### The start of a registration (02 R40) -/

theorem legalTime_iff (t : Nat) : legalTime t = true ↔ 20 ≤ t ∧ t ≤ 30000000 := by
  simp [legalTime]

section Start

variable {s : State} {slot : Nat} {q : Option Port} {pl : Plate}

theorem State.startRegistration_failed
    (h : s.cal.params = none ∨ ∃ c, s.cal.params = some c ∧ (c.width < s.settings.marginOffset + 64 ∨
      exposureTime c.tRef s.settings.marginStep < 20 ∨ 30000000 < exposureTime c.tRef s.settings.marginStep)) :
    ∃ t cost, s.startRegistration slot q = s.endRegistration (newRegistration s slot q t cost) .unreadable none 0 := by
  rcases h with h | ⟨c, hc, hfail⟩
  · exact ⟨0, 0, by simp only [State.startRegistration, h]⟩
  · refine ⟨exposureTime c.tRef s.settings.marginStep,
      exposureCost c.level (exposureTime c.tRef s.settings.marginStep), ?_⟩
    have hno : ¬ (s.settings.marginOffset + 64 ≤ c.width ∧
        legalTime (exposureTime c.tRef s.settings.marginStep) = true) := by
      rw [legalTime_iff]
      omega
    simp only [State.startRegistration, hc, if_neg hno]

variable {c : CalParams} (hc : s.cal.params = some c) (hwide : s.settings.marginOffset + 64 ≤ c.width)
  (hlegal : 20 ≤ exposureTime c.tRef s.settings.marginStep ∧ exposureTime c.tRef s.settings.marginStep ≤ 30000000)
include hc hwide hlegal

theorem State.startRegistration_passed : s.startRegistration slot q =
    { s with registration := some (newRegistration s slot q (exposureTime c.tRef s.settings.marginStep)
      (exposureCost c.level (exposureTime c.tRef s.settings.marginStep))) }.handMargin := by
  simp only [State.startRegistration, hc, if_pos (And.intro hwide ((legalTime_iff _).2 hlegal))]

end Start

section Hand

variable {s : State} {r : Registration} {c : CalParams}

theorem State.handMargin_idle (hr : s.registration = some r) (hc : s.cal.params = some c) (hph : r.phase = .waitUnit)
    (hu : s.unit.state = .idle) :
    s.handMargin = { s with registration := some { r with phase := .moving } }.startMove (marginContext s r c) := by
  simp only [State.handMargin, hr, hc, if_pos (And.intro hph hu)]

theorem State.gentleFor_of_plate {slot : Nat} {pl : Plate} (h : s.plate slot = some pl) :
    s.gentleFor slot = decide (pl.condition = .flaking) := by
  simp only [State.gentleFor, h]

end Hand

/-! ### The end of a registration (02 R42, R43) -/

section End

variable {s : State} {r : Registration} {pl : Plate}

theorem State.endRegistration_of_plate (h : s.plate r.slot = some pl) (o : RegOutcome) (fog : Option Nat) (n : Nat) :
    s.endRegistration r o fog n = State.sendRegDone { s.setPlate r.slot (some
      { pl with state := .staged, marginResult := marginResultOf o, baseFog := fog }) with registration := none }
      r pl o fog n := by
  simp only [State.endRegistration, h]
  rfl

theorem State.plate_endRegistration (h : s.plate r.slot = some pl) (o : RegOutcome) (fog : Option Nat) (n : Nat) :
    (s.endRegistration r o fog n).plate r.slot =
      some { pl with state := .staged, marginResult := marginResultOf o, baseFog := fog } := by
  rw [State.endRegistration_of_plate h, State.plate_congr (s := s.setPlate r.slot (some
    { pl with state := .staged, marginResult := marginResultOf o, baseFog := fog })) (by simp), State.plate_setPlate,
    if_pos ⟨rfl, State.lt_of_plate h⟩]

theorem State.registration_endRegistration (s : State) (r : Registration) (o : RegOutcome) (fog : Option Nat) (n : Nat) :
    (s.endRegistration r o fog n).registration = none := by
  unfold State.endRegistration
  split
  · rfl
  · simp

end End

/-- Settles O31, by the start checks and whether the unit is IDLE. -/
theorem registrationStartChecks : Obligations.RegistrationStartChecks := by
  unfold Obligations.RegistrationStartChecks
  intro s slot q pl hp
  refine ⟨fun hfail => ?_, fun c hc hwide hlow hhigh => ?_⟩
  · obtain ⟨t, cost, hstart⟩ := State.startRegistration_failed (slot := slot) (q := q) hfail
    have hplate : s.plate (newRegistration s slot q t cost).slot = some pl := hp
    rw [hstart]
    exact ⟨State.registration_endRegistration _ _ _ _ _, by simp, State.plate_endRegistration hplate _ _ _,
      _, rfl, rfl, rfl, rfl⟩
  · have hstart := State.startRegistration_passed (slot := slot) (q := q) hc hwide ⟨hlow, hhigh⟩
    by_cases hu : s.unit.state = .idle
    · have hhand := hstart.trans (State.handMargin_idle rfl hc rfl hu)
      refine ⟨?_, fun _ => ?_, fun hbusy => absurd hu hbusy⟩
      · rw [hhand, if_pos hu]
        rfl
      · rw [hhand, ← State.gentleFor_of_plate hp]
        rfl
    · have hhand := hstart.trans (State.handMargin_busy hu)
      refine ⟨?_, fun hidle => absurd hidle hu, fun _ => ?_⟩
      · rw [hhand, if_neg hu]
        rfl
      · rw [hhand]

section Measured

variable {s : State} {r : Registration} {c : CalParams} (hr : s.registration = some r) (hc : s.cal.params = some c)
include hr hc

theorem exec_measurementEnd_read (hph : r.phase = .measuring) (h : 2048 ≤ (normalCodes r c).length) :
    exec .measurementEnd s = .next (s.fresh.settle (s.fresh.endRegistration r .read
      (some ((normalCodes r c).sum / (normalCodes r c).length)) (normalCodes r c).length)) := by
  change execMeasurementEnd s = _
  simp only [execMeasurementEnd, hr, hc, if_pos hph, if_pos h]

theorem exec_measurementEnd_unreadable (hph : r.phase = .measuring) (h : (normalCodes r c).length < 2048) :
    exec .measurementEnd s = .next (s.fresh.settle (s.fresh.endRegistration r .unreadable none
      (normalCodes r c).length)) := by
  change execMeasurementEnd s = _
  simp only [execMeasurementEnd, hr, hc, if_pos hph, if_neg (Nat.not_le.2 h)]

theorem exec_measurementEnd_nothing (hph : r.phase ≠ .measuring) : exec .measurementEnd s = .next s.fresh := by
  change execMeasurementEnd s = _
  simp only [execMeasurementEnd, hr, hc, if_neg hph]

end Measured

theorem State.sendRegDone_handler {s : State} {r : Registration} {pl : Plate} (o : RegOutcome) (fog : Option Nat)
    (n : Nat) (h : r.requester = none ∨ r.requester = some pl.handlerPort) : s.sendRegDone r pl o fog n =
      s.place pl.handlerPort (notice .regDone (.regDone r.slot pl.accession o fog n r.doseCharged)) := by
  rcases h with h | h <;> simp [State.sendRegDone, h]

theorem State.sendRegDone_both {s : State} {r : Registration} {pl : Plate} (o : RegOutcome) (fog : Option Nat)
    (n : Nat) {q : Port} (h : r.requester = some q) (hne : q ≠ pl.handlerPort) : s.sendRegDone r pl o fog n =
      (s.place pl.handlerPort (notice .regDone (.regDone r.slot pl.accession o fog n r.doseCharged))).place q
        (notice .regDone (.regDone r.slot pl.accession o fog n r.doseCharged)) := by
  simp [State.sendRegDone, h, hne]

/-- Settles O32, by the number of NORMAL samples and the receivers of the notice. -/
theorem measurementEndsRegistration : Obligations.MeasurementEndsRegistration := by
  unfold Obligations.MeasurementEndsRegistration
  refine ⟨fun s r c hr hc => ⟨exec_measurementEnd_read hr hc, exec_measurementEnd_unreadable hr hc,
    exec_measurementEnd_nothing hr hc⟩, fun r c => rfl, fun s r pl o fog normal => ⟨fun h result hmem => ?_, ?_⟩⟩
  · have hresult : marginResultOf o = result := by
      simp only [List.mem_cons, Prod.mk.injEq, List.not_mem_nil, or_false] at hmem
      rcases hmem with ⟨rfl, rfl⟩ | ⟨rfl, rfl⟩ | ⟨rfl, rfl⟩ <;> rfl
    rw [State.endRegistration_of_plate h, hresult]
  · rintro _ rfl
    exact ⟨State.sendRegDone_handler o fog normal, fun q => State.sendRegDone_both o fog normal⟩

end Sys2Proof.Machine

end

section
/-! The examination of the stage, the start checks of its head program, and the checks of a submission's fields. -/

namespace Sys2Proof.Machine

/-! ### Records of the queue and of the table -/

theorem State.program?_modProgram (s : State) (tag : Nat) (f : Program → Program) (hf : ∀ x, (f x).tag = x.tag) :
    (s.modProgram tag f).program? tag = (s.program? tag).map f := by
  unfold State.program? State.modProgram
  induction s.programs with
  | nil => rfl
  | cons x l ih =>
    by_cases hx : x.tag = tag
    · simp [hx, hf]
    · simpa [List.map_cons, List.find?_cons, hx] using ih

theorem State.modProgram_same (s : State) (tag : Nat) : s.modProgram tag (fun g => g) = s := by
  simp [State.modProgram]

theorem State.modPlate_of_plate {s : State} {i : Nat} {pl : Plate} (h : s.plate i = some pl) (f : Plate → Plate) :
    s.modPlate i f = s.setPlate i (some (f pl)) := by
  simp only [State.modPlate, h]

theorem State.plate_of_stagePlate {s : State} {i : Nat} {pl : Plate} (h : s.stagePlate = some (i, pl)) :
    s.plate i = some pl := by
  unfold State.stagePlate at h
  split at h
  next j hj =>
    obtain ⟨x, hx, heq⟩ := Option.map_eq_some_iff.1 h
    cases heq
    exact hx
  next => cases h

section ReleaseOf

variable {s : State} {tag : Nat} {g : Program}

theorem State.releaseProgram_of_plate {pl : Plate} (hg : s.program? tag = some g)
    (hp : s.plate g.content.slot = some pl) : s.releaseProgram tag =
      (s.setPlate g.content.slot (some (pl.release tag).2)).modProgram tag
        (fun x => { x with doseReleased := some (pl.release tag).1 }) := by
  simp only [State.releaseProgram, hg, hp]

theorem State.releaseProgram_noPlate (hg : s.program? tag = some g) (hp : s.plate g.content.slot = none) :
    s.releaseProgram tag = s.modProgram tag (fun x => { x with doseReleased := some 0 }) := by
  simp only [State.releaseProgram, hg, hp]

theorem State.releaseProgram_none (h : s.program? tag = none) : s.releaseProgram tag = s := by
  simp only [State.releaseProgram, h]

/-- The release of a reservation changes of the queue at most the dose released. -/
theorem State.programs_releaseProgram (s : State) (tag : Nat) : ∃ f : Program → Program,
    (∀ x, (f x).tag = x.tag ∧ (f x).state = x.state) ∧
    (s.releaseProgram tag).programs = (s.modProgram tag f).programs := by
  rcases hg : s.program? tag with _ | g
  · exact ⟨fun x => x, fun _ => ⟨rfl, rfl⟩, by rw [State.releaseProgram_none hg, State.modProgram_same]⟩
  · rcases hp : s.plate g.content.slot with _ | pl
    · exact ⟨fun x => { x with doseReleased := some 0 }, fun _ => ⟨rfl, rfl⟩,
        by rw [State.releaseProgram_noPlate hg hp]⟩
    · exact ⟨fun x => { x with doseReleased := some (pl.release tag).1 }, fun _ => ⟨rfl, rfl⟩,
        by rw [State.releaseProgram_of_plate hg hp]; rfl⟩

end ReleaseOf

/-! ### How often the stage can be examined again (03 R60) -/

/-- The number of programs that can still become head. -/
def State.countedPrograms (s : State) : Nat := s.programs.countP (fun g => g.state.counted)

theorem countP_map_lt {α : Type} {l : List α} {q : α → Bool} {f : α → α} {a : α} (ha : a ∈ l) (hq : q a = true)
    (hqf : q (f a) = false) (hle : ∀ x, q (f x) = true → q x = true) : (l.map f).countP q < l.countP q := by
  have hmono : ∀ t : List α, (t.map f).countP q ≤ t.countP q := fun t => by
    rw [List.countP_map]
    exact List.countP_mono_left fun x _ => hle x
  obtain ⟨b, c, rfl⟩ := List.append_of_mem ha
  have hb := hmono b
  have hc := hmono c
  simp only [List.map_append, List.map_cons, List.countP_append, List.countP_cons, hq, hqf]
  simp only [if_true, Bool.false_eq_true, if_false]
  omega

theorem State.deliverDone_countedPrograms_le (s : State) (tag : Nat) :
    (s.deliverDone tag).countedPrograms ≤ s.countedPrograms := by
  unfold State.deliverDone
  split
  · exact le_rfl
  · split
    · unfold State.countedPrograms State.dropProgram
      simp only [State.removeFailedTiles_rest]
      rw [show (s.place _ _).programs = s.programs by simp]
      exact List.filter_sublist.countP_le
    · exact le_rfl

/-- A program that ends at its start checks can no longer become head. -/
theorem State.endAtStart_countedPrograms_lt {s : State} {g : Program} (hg : g ∈ s.programs)
    (hcount : g.state.counted = true) (o : ProgramOutcome) (k : Option Nat) :
    (s.endAtStart g.tag o k).countedPrograms < s.countedPrograms := by
  obtain ⟨f, hf, hprograms⟩ := State.programs_releaseProgram
    (s.modProgram g.tag (fun g => { g with outcome := some o, refusedTile := k, generation := some s.cal.generation })) g.tag
  refine (State.deliverDone_countedPrograms_le _ _).trans_lt ?_
  unfold State.countedPrograms
  change ((State.releaseProgram _ g.tag).programs.map _).countP _ < _
  rw [hprograms]
  simp only [State.modProgram, List.map_map]
  apply countP_map_lt hg hcount
  · simp [hf, ProgramState.counted]
  · intro x hx
    by_cases htag : x.tag = g.tag
    · simp [htag, hf, ProgramState.counted] at hx
    · simpa [htag] using hx

theorem State.headProgram_mem {s : State} {g : Program} (h : s.headProgram = some g) :
    g ∈ s.programs ∧ g.state.counted = true :=
  ⟨List.mem_of_find?_eq_some h, List.find?_some (p := fun g : Program => g.state.counted) h⟩

theorem State.startHead_countedPrograms_lt {s : State} {g : Program} {pl : Plate} (hg : s.headProgram = some g)
    (hend : (s.startHead g pl).1 = true) : (s.startHead g pl).2.countedPrograms < s.countedPrograms := by
  obtain ⟨hmem, hcount⟩ := State.headProgram_mem hg
  have hlt := State.endAtStart_countedPrograms_lt hmem hcount
  revert hend
  unfold State.startHead
  repeat' split
  · exact fun _ => hlt _ _
  · exact fun _ => hlt _ _
  · exact fun _ => hlt _ _
  · exact fun _ => hlt _ _
  · nofun

/-! ### The rows of the examination (02 R33) -/

section Examine

variable {s : State} {g : Program} {pl : Plate}

theorem State.examineUpTo_no_head (h : s.headProgram = none) (k : Nat) : s.examineUpTo k = s := by
  cases k with
  | zero => rfl
  | succ k => simp only [State.examineUpTo, h]

variable (hg : s.headProgram = some g)
include hg

theorem State.examineUpTo_running (hrun : g.state = .running) (k : Nat) : s.examineUpTo k = s := by
  cases k with
  | zero => rfl
  | succ k => simp only [State.examineUpTo, hg, if_pos hrun]

variable (hwait : g.state ≠ .running)
include hwait

theorem State.examineUpTo_noPlate (hp : s.plate g.content.slot = none) (k : Nat) : s.examineUpTo k = s := by
  cases k with
  | zero => rfl
  | succ k => simp only [State.examineUpTo, hg, if_neg hwait, hp]

variable (hp : s.plate g.content.slot = some pl)
include hp

theorem State.examineUpTo_staged_goes (hst : pl.state = .staged) (hgoes : (s.startHead g pl).1 = false) (k : Nat) :
    s.examineUpTo (k + 1) = (s.startHead g pl).2 := by
  simp [State.examineUpTo, hg, hwait, hp, hst, hgoes]

theorem State.examineUpTo_staged_ends (hst : pl.state = .staged) (hends : (s.startHead g pl).1 = true) (k : Nat) :
    s.examineUpTo (k + 1) = (s.startHead g pl).2.examineUpTo k := by
  simp [State.examineUpTo, hg, hwait, hp, hst, hends]

theorem State.examineUpTo_unregistered (hst : pl.state = .placed ∨ pl.state = .registering) (k : Nat) :
    s.examineUpTo (k + 1) = s.headWaits g.tag .waitRegister := by
  rcases hst with hst | hst <;> simp [State.examineUpTo, hg, hwait, hp, hst]

theorem State.examineUpTo_releasing (hst : pl.state = .releasing) (k : Nat) :
    s.examineUpTo (k + 1) = s.headWaits g.tag .waitStage := by
  simp [State.examineUpTo, hg, hwait, hp, hst]

theorem State.examineUpTo_offStage (hst : pl.state = .racked ∨ pl.state = .called) (k : Nat) :
    s.examineUpTo (k + 1) = s.examineOffStage g pl := by
  rcases hst with hst | hst <;> simp [State.examineUpTo, hg, hwait, hp, hst]

end Examine

/-- A bound above the number of counted programs is never reached. -/
theorem State.examineUpTo_eq {s : State} {j k : Nat} (hj : s.countedPrograms < j) (hk : s.countedPrograms < k) :
    s.examineUpTo j = s.examineUpTo k := by
  induction j generalizing s k with
  | zero => omega
  | succ j ih =>
    obtain ⟨k, rfl⟩ : ∃ i, k = i + 1 := ⟨k - 1, by omega⟩
    rcases hg : s.headProgram with _ | g
    · rw [State.examineUpTo_no_head hg, State.examineUpTo_no_head hg]
    · by_cases hrun : g.state = .running
      · rw [State.examineUpTo_running hg hrun, State.examineUpTo_running hg hrun]
      · rcases hp : s.plate g.content.slot with _ | pl
        · rw [State.examineUpTo_noPlate hg hrun hp, State.examineUpTo_noPlate hg hrun hp]
        · cases hst : pl.state with
          | staged =>
            rcases hends : (s.startHead g pl).1 with _ | _
            · rw [State.examineUpTo_staged_goes hg hrun hp hst hends, State.examineUpTo_staged_goes hg hrun hp hst hends]
            · have hlt := State.startHead_countedPrograms_lt hg hends
              rw [State.examineUpTo_staged_ends hg hrun hp hst hends, State.examineUpTo_staged_ends hg hrun hp hst hends]
              exact ih (by omega) (by omega)
          | placed | registering => simp only [State.examineUpTo_unregistered hg hrun hp (by simp [hst])]
          | releasing => simp only [State.examineUpTo_releasing hg hrun hp hst]
          | racked | called => simp only [State.examineUpTo_offStage hg hrun hp (by simp [hst])]

/-- A head program that ends at its start checks gives the head to the next (03 R60). -/
theorem State.examine_staged_ends {s : State} {g : Program} {pl : Plate} (hg : s.headProgram = some g)
    (hwait : g.state ≠ .running) (hp : s.plate g.content.slot = some pl) (hst : pl.state = .staged)
    (hends : (s.startHead g pl).1 = true) : s.examine = (s.startHead g pl).2.examine := by
  have hlt := State.startHead_countedPrograms_lt hg hends
  have hle : ∀ t : State, t.countedPrograms ≤ t.programs.length := fun t => List.countP_le_length
  have hs := hle s
  have ht := hle (s.startHead g pl).2
  rw [State.examine, State.examineUpTo_staged_ends hg hwait hp hst hends]
  exact State.examineUpTo_eq (by omega) (by omega)

section OffStage

variable {s : State} {g : Program} {pl : Plate}

theorem State.examineOffStage_free_racked (hfree : s.stagePlate = none) (hp : s.plate g.content.slot = some pl)
    (hst : pl.state = .racked) : s.examineOffStage g pl =
      ((s.setPlate g.content.slot (some { pl with state := .called })).issueNotice g.content.slot (.call g.tag)).headWaits
        g.tag .waitPlate := by
  simp only [State.examineOffStage, hfree, if_pos hst, State.callPlate, State.modPlate_of_plate hp]

theorem State.examineOffStage_free_called (hfree : s.stagePlate = none) (hst : pl.state = .called) :
    s.examineOffStage g pl = s.headWaits g.tag .waitPlate := by
  simp [State.examineOffStage, hfree, hst]

theorem State.examineOffStage_returned {i : Nat} {o : Plate} (hocc : s.stagePlate = some (i, o))
    (hst : o.state ≠ .releasing) (hhold : o.hasHold = false) : s.examineOffStage g pl =
      ((s.setPlate i (some { o with state := .releasing })).issueNotice i (.ret g.content.slot)).headWaits
        g.tag .waitStage := by
  have hret : o.returnable = true := by simp [Plate.returnable, hst, hhold]
  simp only [State.examineOffStage, hocc, if_pos hret, State.returnPlate,
    State.modPlate_of_plate (State.plate_of_stagePlate hocc)]

theorem State.examineOffStage_held {i : Nat} {o : Plate} (hocc : s.stagePlate = some (i, o))
    (hkept : o.state = .releasing ∨ o.hasHold = true) : s.examineOffStage g pl = s.headWaits g.tag .waitStage := by
  have hret : ¬ o.returnable = true := by rcases hkept with h | h <;> simp [Plate.returnable, h]
  simp only [State.examineOffStage, hocc, if_neg hret]

end OffStage

/-! ### The notices of a plate (02 R38) -/

section Notice

variable {s : State} {slot : Nat} {pl : Plate} (h : s.plate slot = some pl) (n : PendingNotice)
include h

theorem State.issueNotice_placed (hup : (s.port pl.handlerPort).link = .up)
    (hroom : (s.port pl.handlerPort).outbound.length < 64) :
    s.issueNotice slot n = s.place pl.handlerPort (plateNotice slot pl n) := by
  have hcan := (s.port pl.handlerPort).canTake_iff.2 ⟨hup, hroom⟩
  simp only [State.issueNotice, h, if_pos hcan]

theorem State.issueNotice_pending
    (hno : (s.port pl.handlerPort).link = .down ∨ 64 ≤ (s.port pl.handlerPort).outbound.length) :
    s.issueNotice slot n = s.setPlate slot (some { pl with noticePending := some n }) := by
  have hcan : ¬ (s.port pl.handlerPort).canTake = true := by simp [(s.port pl.handlerPort).canTake_false_iff.2 hno]
  simp only [State.issueNotice, h, if_neg hcan, State.modPlate_of_plate h]

end Notice

theorem ProgramState.counted_iff (st : ProgramState) : st.counted = true ↔
    st = .queued ∨ st = .waitStage ∨ st = .waitPlate ∨ st = .waitRegister ∨ st = .running := by
  cases st <;> simp [ProgramState.counted]

/-- Settles O33: the rows of R33; a bound above the number of counted programs makes the examination the same as one
without a bound. -/
theorem examinationActsByTable : Obligations.ExaminationActsByTable := by
  unfold Obligations.ExaminationActsByTable
  refine ⟨fun s g pl hg hwait hp => ⟨fun hst => ?_, fun hst => ?_, fun hst hfree => ?_, fun hst hfree => ?_,
      fun i o hst hocc => ⟨fun hre hhold => ?_, fun hkept => ?_⟩⟩,
    fun s => ⟨fun h => s.examineUpTo_no_head h _, fun g hg hrun => State.examineUpTo_running hg hrun _,
      fun g pl hg hwait hp hst => ⟨fun hgoes => ?_, fun hends => ?_⟩⟩,
    fun s => ?_, fun s slot tag pl n st hp => ⟨rfl, fun e he => ?_⟩⟩
  · exact State.examineUpTo_unregistered hg hwait hp hst _
  · exact State.examineUpTo_releasing hg hwait hp hst _
  · exact (State.examineUpTo_offStage hg hwait hp (.inl hst) _).trans (State.examineOffStage_free_racked hfree hp hst)
  · exact (State.examineUpTo_offStage hg hwait hp (.inr hst) _).trans (State.examineOffStage_free_called hfree hst)
  · exact (State.examineUpTo_offStage hg hwait hp hst _).trans (State.examineOffStage_returned hocc hre hhold)
  · exact (State.examineUpTo_offStage hg hwait hp hst _).trans (State.examineOffStage_held hocc hkept)
  · exact State.examineUpTo_staged_goes hg hwait hp hst hgoes _
  · exact State.examine_staged_ends hg hwait hp hst hends
  · intro counted
    have hcounted : ∀ g, g.state.counted = true ↔ counted g := fun g => ProgramState.counted_iff g.state
    refine ⟨fun g => ?_, ?_⟩
    · rw [State.headProgram, List.find?_eq_some_iff_append]
      simp only [hcounted, Bool.not_eq_true', ← Bool.not_eq_true]
      exact ⟨fun ⟨hg, older, younger, hsplit, hno⟩ => ⟨older, younger, hsplit, hg, hno⟩,
        fun ⟨older, younger, hsplit, hg, hno⟩ => ⟨hg, older, younger, hsplit, hno⟩⟩
    · rw [State.headProgram, List.find?_eq_none]
      simp only [hcounted]
  · have hnotice : e = plateNotice slot pl n := by cases n <;> exact he
    subst hnotice
    exact ⟨State.issueNotice_placed hp n, State.issueNotice_pending hp n⟩

/-! ### The checks of a submission's fields (03 R50 to R54) -/

theorem ascending_iff (l : List Int) : ascending l = true ↔ l.Pairwise (· < ·) := by
  rw [← List.isChain_iff_pairwise]
  induction l with
  | nil => simp [ascending]
  | cons a l ih =>
    cases l with
    | nil => simp [ascending]
    | cons b l => simp [ascending, ih]

theorem stepsLegal_iff (c : CalParams) (steps : List Int) : stepsLegal c steps = true ↔
    ∀ e ∈ steps, 20 ≤ exposureTime c.tRef e ∧ exposureTime c.tRef e ≤ 30000000 := by
  simp [stepsLegal, legalTime_iff]

theorem TileDesc.good_iff (d : TileDesc) (size : SizeClass) (brackets calWidth : Nat) :
    d.good size brackets calWidth = true ↔
    d.x ≤ (SizeClass.extent size).1 ∧ d.y ≤ (SizeClass.extent size).2 ∧
    d.c0 ≤ 4032 ∧ 64 ≤ d.width ∧ d.width ≤ 4096 ∧ 64 ∣ d.width ∧ 16 ≤ d.height ∧ d.height ≤ 4096 ∧ 16 ∣ d.height ∧
    d.bracket < brackets ∧ d.c0 + d.width ≤ calWidth := by
  simp only [TileDesc.good, Bool.and_eq_true, decide_eq_true_eq, Nat.dvd_iff_mod_eq_zero, and_assoc]

section Header

variable {f : SubmitFields} {a : RoundingMode} {b : MergeMode} {c d : Bool}
  (ha : f.rounding = some a) (hb : f.mergeMode = some b) (hc : f.marking = some c) (hd : f.baseSubtraction = some d)
include ha hb hc hd

/-- The numbers of a header whose named fields are good, in the order of R50. -/
theorem SubmitFields.header_of_names : f.header =
    if f.sat < 1024 ∨ 16383 < f.sat then .inl 8
    else if f.floor < 1 ∨ 4095 < f.floor then .inl 10
    else if f.bracketCount < 1 ∨ 4 < f.bracketCount then .inl 5
    else if f.tileCount < 1 ∨ 64 < f.tileCount then .inl 6
    else .inr { rounding := a, mergeMode := b, marking := c, baseSubtraction := d } := by
  simp only [SubmitFields.header, ha, hb, hc, hd]

end Header

/-- Settles O34: the header field by field, the other checks as the ranges they are. -/
theorem submissionFieldChecks : Obligations.SubmissionFieldChecks := by
  unfold Obligations.SubmissionFieldChecks
  refine ⟨fun f => ⟨fun ha => ?_, fun a ha hb => ?_, fun a b ha hb hc => ?_, fun a b c ha hb hc hd => ?_,
      fun a b c d ha hb hc hd => ?_⟩, fun b => ?_, fun d size brackets calWidth => ?_, stepsLegal_iff, fun c b => rfl⟩
  · simp only [SubmitFields.header, ha]
  · simp only [SubmitFields.header, ha, hb]
  · simp only [SubmitFields.header, ha, hb, hc]
  · simp only [SubmitFields.header, ha, hb, hc, hd]
  · rw [SubmitFields.header_of_names ha hb hc hd]
    refine ⟨fun hsat => if_pos hsat, fun h1 h2 => ?_⟩
    rw [if_neg (by omega)]
    refine ⟨fun hfloor => if_pos (by omega), fun h1 h2 => ?_⟩
    rw [if_neg (by omega)]
    refine ⟨fun hbr => if_pos (by omega), fun h1 h2 => ?_⟩
    rw [if_neg (by omega)]
    exact ⟨fun ht => if_pos (by omega), fun h1 h2 => if_neg (by omega)⟩
  · simp [BracketField.good, ascending_iff, and_assoc]
  · rw [TileDesc.good_iff]
    cases size <;> exact Iff.rfl

/-! ### The start checks (03 R60) -/

/-- A program of no tile with the tag of the program of the queue. -/
def emptyProgram : Program := { Tests.prog .queued with content := { Tests.content with tiles := [] } }

/-- A STAGED plate whose queue holds one program of tag 7 with a tile. -/
def oneTileState : State := Tests.withPrograms (Tests.calibrated (Tests.on Tests.keptPlate)) [Tests.prog .queued]

theorem startHead_emptyProgram_estimate :
    (oneTileState.startHead emptyProgram Tests.keptPlate).2.programs.map (·.estimate) = [0] := by
  decide +kernel

/-- Refutes O38. The statement writes the estimate of the program that begins inside the change of every record with its
tag, where `g` is the record changed: it asks for the estimate of that record's own content, and the model gives it that of
the head program. Nothing says that the two are one: the record of the queue has a tile and the program given none. -/
theorem not_startChecksInOrder : ¬ Obligations.StartChecksInOrder := by
  unfold Obligations.StartChecksInOrder
  intro h
  obtain ⟨hchecks, -, -⟩ := h
  obtain ⟨-, hpassed⟩ := hchecks oneTileState emptyProgram Tests.keptPlate Tests.cal (by decide +kernel)
  obtain ⟨-, hbased⟩ := hpassed (by decide +kernel)
  obtain ⟨-, hbegins⟩ := hbased (.inl (by decide +kernel))
  have hstate := hbegins _ (Plate.reestimate_of_le (by decide +kernel))
  have hestimates := congrArg (fun r : Bool × State => r.2.programs.map (·.estimate)) hstate
  simp only [startHead_emptyProgram_estimate] at hestimates
  exact absurd hestimates (by decide +kernel)

end Sys2Proof.Machine

end

section
/-! CANCEL_PROGRAM, the tile given up, the end of a capture, PROGRAM_DONE, and the call withdrawn. -/

namespace Sys2Proof.Machine

/-! ### CANCEL_PROGRAM (03 R69 to R71) -/

section Cancel

variable {s : State} {tag : Nat} {g : Program} (p : Port) (m : Message)

theorem State.cancelProgram_unknown (h : ∀ g ∈ s.programs, g.tag ≠ tag) :
    s.cancelProgram p m tag = s.reply p m .unknownProgram := by
  have hnone : s.program? tag = none := List.find?_eq_none.2 (by simpa using h)
  simp only [State.cancelProgram, hnone]

variable (hg : s.program? tag = some g)
include hg

theorem State.cancelProgram_fixed {o : ProgramOutcome} (ho : g.outcome = some o) :
    s.cancelProgram p m tag = s.reply p m .ok (.programOutcome tag o) := by
  simp only [State.cancelProgram, hg, ho, State.cancelReply]

theorem State.cancelProgram_waiting (ho : g.outcome = none) (hw : g.state.waiting = true) :
    s.cancelProgram p m tag = s.settle
      (((((s.fixOutcome tag .cancelled).releaseProgram tag).reply p m .ok
        (.programOutcome tag .cancelled)).withdrawCall g.content.slot).finishProgram tag) := by
  simp only [State.cancelProgram, hg, ho, if_pos hw, State.cancelWaiting, State.cancelReply, State.program_tag hg]

theorem State.cancelProgram_running (ho : g.outcome = none) (hrun : g.state = .running) :
    s.cancelProgram p m tag = s.settle
      (((s.fixOutcome tag .cancelled).reply p m .ok (.programOutcome tag .cancelled)).giveUpTile g false) := by
  have hw : ¬ g.state.waiting = true := by simp [hrun, ProgramState.waiting]
  simp only [State.cancelProgram, hg, ho, if_neg hw, if_pos hrun, State.cancelRunning, State.cancelReply,
    State.program_tag hg]

end Cancel

/-! ### The tile given up (03 R66, R70) -/

section GiveUp

variable {s : State} {g : Program}

theorem State.giveUpTile_none (h : g.captureStep = none) (b : Bool) : s.giveUpTile g b = s := by
  simp only [State.giveUpTile, h]

theorem State.giveUpTile_storeWait (h : g.captureStep = some .storeWait) (b : Bool) :
    s.giveUpTile g b = State.endCapture { s with allocWaiting := none } g.tag (some g.nextTile) := by
  simp only [State.giveUpTile, h]

theorem State.giveUpTile_unitWait (h : g.captureStep = some .unitWait) (b : Bool) : s.giveUpTile g b =
    (s.failTile { tag := g.tag, index := g.nextTile }).endCapture g.tag (some g.nextTile) := by
  simp only [State.giveUpTile, h]

variable (h : g.captureStep = some .inUnit)
include h

theorem State.giveUpTile_runsOn (hu : s.unit.state = .readout) : s.giveUpTile g true = s := by
  simp [State.giveUpTile, h, hu]

variable {b : Bool} (hends : s.unit.state ≠ .readout ∨ b = false)
include hends

theorem State.giveUpTile_notHeld (hno : s.holdsTile { tag := g.tag, index := g.nextTile } = false) :
    s.giveUpTile g b = (s.failTile { tag := g.tag, index := g.nextTile }).endCapture g.tag (some g.nextTile) := by
  have hgo : ¬ (s.unit.state = .readout ∧ b = true) := by rcases hends with h | h <;> simp [h]
  simp [State.giveUpTile, h, hgo, hno]

theorem State.giveUpTile_held (hheld : s.holdsTile { tag := g.tag, index := g.nextTile } = true) : s.giveUpTile g b =
    (s.abandon.failTile { tag := g.tag, index := g.nextTile }).endCapture g.tag (some g.nextTile) := by
  have hgo : ¬ (s.unit.state = .readout ∧ b = true) := by rcases hends with h | h <;> simp [h]
  simp [State.giveUpTile, h, hgo, hheld]

end GiveUp

theorem State.context_of_holdsTile {s : State} {id : TileId} (h : s.holdsTile id = true) :
    ∃ c, s.unit.context = some c ∧ c.kind = .tile id := by
  unfold State.holdsTile at h
  split at h
  next c hc => exact ⟨c, hc, by simp at h; exact h.1⟩
  next => cases h

/-! ### The end of a capture (03 R67) and PROGRAM_DONE (03 R73 to R75) -/

section EndOf

variable {s : State} {g : Program} {pl : Plate} {failing : Option Nat}

/-- The record of a program and its plate's record as its capture ends in `st`. -/
def State.captureEnded (s : State) (g : Program) (pl : Plate) (failing : Option Nat) (st : ProgramState) : State :=
  (s.setPlate g.content.slot (some (pl.release g.tag).2)).modProgram g.tag (fun x => { x with
    state := st, captureStep := none, failingTile := failing, doseReleased := some (pl.release g.tag).1 })

variable (hg : s.program? g.tag = some g) (hp : s.plate g.content.slot = some pl)
include hg hp

/-- The reservation is released and the failing tile recorded, whatever the program becomes. -/
theorem State.endCapture_records : (s.releaseProgram g.tag).modProgram g.tag (fun x => { x with
      captureStep := none, failingTile := failing }) =
    (s.setPlate g.content.slot (some (pl.release g.tag).2)).modProgram g.tag (fun x => { x with
      captureStep := none, failingTile := failing, doseReleased := some (pl.release g.tag).1 }) := by
  rw [State.releaseProgram_of_plate hg hp, State.modProgram_modProgram _ _ _ _ (by exact fun _ => rfl)]

omit hp in
theorem State.program?_endCapture_records : ((s.setPlate g.content.slot (some (pl.release g.tag).2)).modProgram g.tag
      (fun x => { x with
        captureStep := none, failingTile := failing, doseReleased := some (pl.release g.tag).1 })).program? g.tag =
    some { g with captureStep := none, failingTile := failing, doseReleased := some (pl.release g.tag).1 } := by
  rw [State.program?_modProgram _ _ _ (by exact fun _ => rfl)]
  exact congrArg _ hg

theorem State.endCapture_merging (hmerge : 0 < g.tilesInMerge) :
    s.endCapture g.tag failing = s.captureEnded g pl failing .merging := by
  unfold State.endCapture State.captureEnded
  simp only [State.endCapture_records hg hp, State.program?_endCapture_records hg, if_pos hmerge]
  exact State.modProgram_modProgram _ _ _ _ (fun _ => rfl)

theorem State.endCapture_finished (hmerge : g.tilesInMerge = 0) :
    s.endCapture g.tag failing = (s.captureEnded g pl failing .finished).deliverDone g.tag := by
  have hno : ¬ 0 < g.tilesInMerge := by omega
  unfold State.endCapture State.captureEnded
  simp only [State.endCapture_records hg hp, State.program?_endCapture_records hg, if_neg hno, State.finishProgram]
  rw [State.modProgram_modProgram _ _ _ _ (by exact fun _ => rfl)]

end EndOf

section Done

variable {s : State} {g : Program} (hg : s.program? g.tag = some g)
include hg

theorem State.deliverDone_placed (hup : (s.port g.port).link = .up) (hroom : (s.port g.port).outbound.length < 64) :
    s.deliverDone g.tag = (s.place g.port (programDone g)).dropProgram g.tag := by
  have hcan := (s.port g.port).canTake_iff.2 ⟨hup, hroom⟩
  simp only [State.deliverDone, hg, if_pos hcan]

theorem State.deliverDone_held (hno : (s.port g.port).link = .down ∨ 64 ≤ (s.port g.port).outbound.length) :
    s.deliverDone g.tag = s := by
  have hcan : ¬ (s.port g.port).canTake = true := by simp [(s.port g.port).canTake_false_iff.2 hno]
  simp only [State.deliverDone, hg, if_neg hcan]

end Done

theorem State.dropProgram_eq (s : State) (tag : Nat) : s.dropProgram tag =
    { s with programs := s.programs.filter (fun x => decide (x.tag ≠ tag))
             directory := s.directory.filter (fun x => !decide (x.id.tag = tag ∧ x.state = .failed)) } := by
  simp [State.dropProgram, State.removeFailedTiles]

/-! ### The call withdrawn (02 R37) -/

section Withdraw

variable {s : State} {slot : Nat} {pl : Plate} (hp : s.plate slot = some pl)
include hp

theorem State.withdrawCall_wanted (h : pl.state ≠ .called ∨ pl.programCount ≠ 0) : s.withdrawCall slot = s := by
  have hno : ¬ (pl.state = .called ∧ pl.programCount = 0) := by rcases h with h | h <;> simp [h]
  simp only [State.withdrawCall, hp, if_neg hno]

variable (hst : pl.state = .called) (hcount : pl.programCount = 0)
include hst hcount

theorem State.withdrawCall_pending (h : pl.noticePending ≠ none) :
    s.withdrawCall slot = s.setPlate slot (some { pl with state := .racked, noticePending := none }) := by
  obtain ⟨n, hn⟩ := Option.ne_none_iff_exists'.1 h
  simp only [State.withdrawCall, hp, if_pos (And.intro hst hcount), hn]

theorem State.withdrawCall_issued (h : pl.noticePending = none) : s.withdrawCall slot =
    (s.setPlate slot (some { pl with state := .racked, noticePending := none })).place pl.handlerPort
      (notice .callWithdrawn (.callWithdrawn slot pl.accession)) := by
  simp only [State.withdrawCall, hp, if_pos (And.intro hst hcount), h]

end Withdraw

theorem ProgramState.waiting_of_states {st : ProgramState}
    (h : st = .queued ∨ st = .waitStage ∨ st = .waitPlate ∨ st = .waitRegister) : st.waiting = true := by
  rcases h with rfl | rfl | rfl | rfl <;> rfl

/-- Settles O39: the rows of the request, of the tile given up, and of what follows the end of a capture. -/
theorem cancelAndGivenUpTile : Obligations.CancelAndGivenUpTile := by
  unfold Obligations.CancelAndGivenUpTile
  refine ⟨fun s p m rest tag hasks => ?_,
    fun s g b => ⟨fun h => ?_, fun h => ?_, fun h hheld => ⟨fun hu => ?_, fun hu => ?_, fun hu hb => ?_, fun hu hb => ?_⟩⟩,
    fun s g b => ?_, fun s g pl failing hg hp => ?_,
    fun s g hg => ⟨rfl, fun hup hroom => ?_, fun hno => State.deliverDone_held hg hno⟩,
    fun s slot pl hp => ⟨fun hst hcount => ⟨State.withdrawCall_pending hp hst hcount,
      State.withdrawCall_issued hp hst hcount⟩, State.withdrawCall_wanted hp⟩⟩
  · intro u
    have hprogram : ∀ {g}, s.program? tag = some g → u.program? tag = some g := fun h => by simpa [u] using h
    have hexec : exec (.cancelProgram p) s = .next (u.cancelProgram p m tag) :=
      exec_command_of_asks (r := .cancelProgram tag) hasks
    rw [hexec]
    refine ⟨fun h => congrArg _ (State.cancelProgram_unknown p m (by simpa [u] using h)),
      fun g hg => ⟨fun o ho => ?_, fun ho => ⟨fun hw => ?_, fun hrun => ?_⟩⟩⟩
    · exact congrArg _ (State.cancelProgram_fixed p m (hprogram hg) ho)
    · exact congrArg _ (State.cancelProgram_waiting p m (hprogram hg) ho (ProgramState.waiting_of_states hw))
    · exact congrArg _ (State.cancelProgram_running p m (hprogram hg) ho hrun)
  · rw [State.giveUpTile_storeWait h]
    simp
  · rw [State.giveUpTile_unitWait h]
    simp
  · obtain ⟨c, hc, -⟩ := State.context_of_holdsTile hheld
    rw [State.giveUpTile_held h (.inl (by simp [hu])) hheld, State.abandon_moving hc hu]
    simp [State.unitIdle]
  · obtain ⟨c, hc, -⟩ := State.context_of_holdsTile hheld
    rw [State.giveUpTile_held h (.inl (by simp [hu])) hheld, State.abandon_exposing hc hu]
    simp [State.unitIdle, State.stopTake]
  · obtain ⟨c, hc, hk⟩ := State.context_of_holdsTile hheld
    rw [State.giveUpTile_held h (.inr hb) hheld, State.abandon_readout_tile hc hu hk]
    simp [State.modContext, hu]
  · rw [hb, State.giveUpTile_runsOn h hu]
  · intro id
    refine ⟨fun h => State.giveUpTile_none h b, fun h => State.giveUpTile_storeWait h b,
      fun h => State.giveUpTile_unitWait h b, fun h hends => ⟨fun hno => State.giveUpTile_notHeld h hends hno,
        fun hheld => ⟨s.abandon, State.giveUpTile_held h hends hheld, s.abandon_eq⟩⟩⟩
  · exact ⟨fun hmerge => State.endCapture_merging hg hp hmerge, fun hmerge => State.endCapture_finished hg hp hmerge⟩
  · rw [State.deliverDone_placed hg hup hroom, State.dropProgram_eq]
    simp

end Sys2Proof.Machine

end

section
/-! CALIBRATE and the two frames of a calibration, the answers to a move, and the charges of exposures and retakes. -/

namespace Sys2Proof.Machine

/-! ### CALIBRATE (05 R108, R109) -/

theorem State.captureBusy_iff (s : State) : s.captureBusy = true ↔
    (∃ g ∈ s.programs, g.state = .running ∨ g.state = .merging) ∨ s.mergeQueue ≠ [] := by
  simp [State.captureBusy]

section Calibrate

variable {s : State} (p : Port) (m : Message) {tRef level width : Nat}

theorem State.calibrate_occupied (h : s.occupant ≠ none) :
    s.calibrate p m tRef level width = s.reply p m .stageOccupied := if_pos h

variable (hocc : s.occupant = none)
include hocc

theorem State.calibrate_calibrating (h : s.calContext ≠ none) :
    s.calibrate p m tRef level width = s.busyPlain p m := by
  simp [State.calibrate, hocc, h]

theorem State.calibrate_working (h : s.captureBusy = true) : s.calibrate p m tRef level width = s.busyPlain p m := by
  simp [State.calibrate, hocc, h]

theorem State.calibrate_unitBusy (h : s.unit.state ≠ .idle) : s.calibrate p m tRef level width = s.busyPlain p m := by
  simp [State.calibrate, hocc, h]

variable (hcal : s.calContext = none) (hwork : ¬ s.captureBusy = true) (hidle : s.unit.state = .idle)
include hcal hwork hidle

/-- The fields of the request, once nothing else stands in its way. -/
theorem State.calibrate_fields : s.calibrate p m tRef level width =
    if tRef < 100 ∨ 100000 < tRef then s.badField p m 0
    else if level < 1 ∨ 255 < level then s.badField p m 4
    else if width < 64 ∨ 4096 < width ∨ width % 64 ≠ 0 then s.badField p m 6
    else s.acceptCalibrate p m (newCalContext p tRef level width) := by
  simp [State.calibrate, hocc, hcal, hwork, hidle]

end Calibrate

/-- Settles O40, by the checks of R108 in their order. -/
theorem calibrateStartsOrRefuses : Obligations.CalibrateStartsOrRefuses := by
  unfold Obligations.CalibrateStartsOrRefuses
  intro s p m rest tRef level width hasks u busy working
  have hexec : exec (.calibrate p) s = .next (u.calibrate p m tRef level width) :=
    exec_command_of_asks (r := .calibrate tRef level width) hasks
  have hbusy : u.captureBusy = true ↔ working := by simp [u, working, State.captureBusy_iff]
  have hocc : u.occupant = s.occupant := State.taken_occupant _ _ _
  have hcal : u.calContext = s.calContext := by simp [u]
  have hunit : u.unit = s.unit := by simp [u]
  rw [← hocc, ← hcal, ← hunit]
  refine ⟨fun h => hexec.trans (congrArg _ (State.calibrate_occupied p m h)),
    fun h1 => ⟨fun h => hexec.trans (congrArg _ (State.calibrate_calibrating p m h1 h)),
    fun h2 => ⟨fun h => hexec.trans (congrArg _ (State.calibrate_working p m h1 (hbusy.2 h))),
    fun h3 => ⟨fun h => hexec.trans (congrArg _ (State.calibrate_unitBusy p m h1 h)), fun h4 => ?_⟩⟩⟩⟩
  rw [hexec, State.calibrate_fields p m h1 h2 (mt hbusy.1 h3) h4]
  refine ⟨fun h => by rw [if_pos h]; rfl, fun ht1 ht2 => ?_⟩
  rw [if_neg (by omega)]
  refine ⟨fun h => by rw [if_pos (by omega)]; rfl, fun hl1 hl2 => ?_⟩
  rw [if_neg (by omega)]
  refine ⟨fun h => by rw [if_pos (by omega)]; rfl, fun hw1 hw2 hw3 =>
    ⟨u.acceptCalibrate p m (newCalContext p tRef level width), by rw [if_neg (by omega)], ?_, ?_, ?_,
      by cases p <;> rfl, ?_⟩⟩
  · simp [State.acceptCalibrate, newCalContext]
  · simp [State.acceptCalibrate, State.startMove, newCalContext, calContextOf]
  · simp [State.acceptCalibrate, State.startMove, calContextOf, u]
  · simp [State.acceptCalibrate, u]

/-! ### The frames of a calibration (05 R110 to R116) -/

theorem nextGeneration_eq (g : Nat) : nextGeneration g = if g < 4294967295 then g + 1 else 1 := by
  unfold nextGeneration
  split <;> split <;> omega

/-- The first place of the least value. -/
theorem leastAt_eq_some {l : List Nat} {w i : Nat} (hi : l[i]? = some w) (hle : ∀ x ∈ l, w ≤ x)
    (hbefore : ∀ j x, j < i → l[j]? = some x → w < x) : leastAt l = some (w, i) := by
  induction l generalizing i with
  | nil => simp at hi
  | cons a l ih =>
    have htail : ∀ x ∈ l, w ≤ x := fun x hx => hle x (List.mem_cons_of_mem _ hx)
    cases i with
    | zero =>
      obtain rfl : a = w := by simpa using hi
      have hmin : ∀ l : List Nat, (∀ x ∈ l, a ≤ x) → ∀ v j, leastAt l = some (v, j) → a ≤ v := by
        intro l
        induction l with
        | nil => intro _ v j h; simp [leastAt] at h
        | cons b l ihl =>
          intro hall v j h
          have hrest := ihl fun x hx => hall x (List.mem_cons_of_mem _ hx)
          have hb := hall b List.mem_cons_self
          rcases hl : leastAt l with _ | ⟨v', j'⟩
          · simp only [leastAt, hl, Option.some.injEq, Prod.mk.injEq] at h
            omega
          · have hv' := hrest v' j' hl
            simp only [leastAt, hl] at h
            split at h <;> simp only [Option.some.injEq, Prod.mk.injEq] at h <;> omega
      rcases hl : leastAt l with _ | ⟨v, j⟩
      · simp only [leastAt, hl]
      · have hv := hmin l htail v j hl
        simp only [leastAt, hl, if_neg (Nat.not_lt.2 hv)]
    | succ i =>
      have ha : w < a := hbefore 0 a (Nat.succ_pos i) rfl
      have hl := ih (i := i) (by simpa using hi) htail fun j x hj hx => hbefore (j + 1) x (by omega) (by simpa using hx)
      simp only [leastAt, hl, if_pos ha]

section Frames

variable {s : State} {k : CalContext}

theorem State.lightFrameDone_saturated {c : Nat} (h : k.saturation = some c) : s.lightFrameDone k =
    s.endCalibration k .saturated { column := some c, w := none, least := none } := by
  simp only [State.lightFrameDone, h]
  rfl

variable (hsat : k.saturation = none)
include hsat

theorem State.lightFrameDone_weak {c w : Nat} (hc : (netReferences k)[c]? = some w) (hw : w < 256)
    (hbefore : ∀ j x, j < c → (netReferences k)[j]? = some x → 256 ≤ x) : s.lightFrameDone k =
      s.endCalibration k .weak { column := some c, w := some w, least := none } := by
  have hfirst : (netReferences k).findIdx? (fun w => decide (w < 256)) = some c :=
    findIdx?_first hc (by simpa using hw) fun j x hj hx => by simpa using hbefore j x hj hx
  simp only [State.lightFrameDone, hsat, hfirst, List.getD_eq_getElem?_getD, hc]
  rfl

theorem State.lightFrameDone_calibrated (hall : ∀ w ∈ netReferences k, 256 ≤ w) : s.lightFrameDone k =
    { s with cal := calibratedRecord s.cal.generation k }.endCalibration k .calibrated
      { column := none, w := none, least := leastAt (netReferences k) } := by
  have hnone : (netReferences k).findIdx? (fun w => decide (w < 256)) = none :=
    List.findIdx?_eq_none_iff.2 fun x hx => by simpa using hall x hx
  simp only [State.lightFrameDone, hsat, hnone]
  rfl

end Frames

theorem calibratedRecord_eq (g : Nat) (k : CalContext) : calibratedRecord g k =
    { generation := if g < 4294967295 then g + 1 else 1
      params := some { tRef := k.tRef, level := k.level, width := k.width, dark := k.dark.getD 0
                       table := (netReferences k).map logOf } } := by
  rw [calibratedRecord, nextGeneration_eq]

theorem State.interruptCalibration_none {s : State} (h : s.calContext = none) : s.interruptCalibration = s := by
  simp only [State.interruptCalibration, h]

section Interrupt

variable {s : State} {k : CalContext} (hk : s.calContext = some k)
include hk

theorem State.interruptCalibration_frame {c : ExposureContext} (hc : s.unit.context = some c)
    (hkind : c.kind = .calDark ∨ c.kind = .calLight) :
    s.interruptCalibration = s.abandon.endCalibration k .interrupted noFigures := by
  simp only [State.interruptCalibration, hk, hc, if_pos hkind]

theorem State.interruptCalibration_other
    (h : ∀ c, s.unit.context = some c → c.kind ≠ .calDark ∧ c.kind ≠ .calLight) :
    s.interruptCalibration = s.endCalibration k .interrupted noFigures := by
  rcases hc : s.unit.context with _ | c
  · simp only [State.interruptCalibration, hk, hc]
  · have hno : ¬ (c.kind = .calDark ∨ c.kind = .calLight) := by
      obtain ⟨hdark, hlight⟩ := h c hc
      simp [hdark, hlight]
    simp only [State.interruptCalibration, hk, hc, if_neg hno]

end Interrupt

/-! ### Good lines (04 R90 to R93) -/

section Line

variable {s : State} {c : ExposureContext} {number count : BitVec 16} {samples : List Sample} {check : BitVec 16}

theorem exec_line_good (hu : s.unit.state = .readout) (hc : s.unit.context = some c)
    (hgood : lineGood c number count samples check = true) :
    exec (.line s.unit.takeNumber number count samples check) s = .next (s.fresh.settle (s.fresh.takeLine c samples)) := by
  change execLine _ _ _ _ _ s = _
  simp only [execLine, if_true, hu, hc, hgood]

/-- The state once a good line has gone where it goes and the next is expected within 100 ms (04 R90, R92, R98). -/
def State.lineTaken (s : State) (c : ExposureContext) (samples : List Sample) : State :=
  { (if c.disposal then s else s.storeLine c c.nextLine samples) with
    unit := { s.unit with context := some { c with nextLine := c.nextLine + 1 }, timer := .line 100 } }

theorem State.takeLine_eq : s.takeLine c samples =
    if c.nextLine + 1 = c.height then
      if c.disposal then (s.lineTaken c samples).unitIdle
      else (s.lineTaken c samples).takeGood { c with nextLine := c.nextLine + 1 }
    else s.lineTaken c samples := by
  have hunit : (if c.disposal then s else s.storeLine c c.nextLine samples).unit = s.unit := by
    split
    · rfl
    · simp
  simp only [State.takeLine, hunit]
  rfl

theorem State.takeLine_middle (h : c.nextLine + 1 ≠ c.height) : s.takeLine c samples = s.lineTaken c samples := by
  rw [State.takeLine_eq, if_neg h]

theorem State.takeLine_disposed (hd : c.disposal = true) (hlast : c.nextLine + 1 = c.height) :
    s.takeLine c samples = (s.lineTaken c samples).unitIdle := by
  rw [State.takeLine_eq, if_pos hlast, if_pos hd]

theorem State.takeLine_last (hd : c.disposal = false) (hlast : c.nextLine + 1 = c.height) :
    s.takeLine c samples = (s.lineTaken c samples).takeGood { c with nextLine := c.nextLine + 1 } := by
  rw [State.takeLine_eq, if_pos hlast, if_neg (by simp [hd])]

theorem State.takeGood_last (h : c.exposures.length ≤ c.current) : s.takeGood c = s.workDone c :=
  if_neg (Nat.not_lt.2 h)

end Line

theorem CalContext.addDark_of_pos (k : CalContext) {y : Nat} (hy : 0 < y) (samples : List Sample) :
    k.addDark y samples = { k with darkSum := k.darkSum + (samples.map BitVec.toNat).sum } := by
  simp [CalContext.addDark, lineSum, hy.ne']

theorem CalContext.addLight_of_pos (k : CalContext) {y : Nat} (hy : 0 < y) (samples : List Sample) :
    k.addLight y samples = { k with
      columnSums := List.zipWith (· + ·) k.columnSums (samples.map BitVec.toNat)
      saturation := lowerOf k.saturation (samples.findIdx? (fun v => decide (v.toNat = 16383))) } := by
  simp [CalContext.addLight, hy.ne', List.zipWith_map_right]

/-- Settles O41: the rows of R110 to R116, each frame ended by the last line of its take. -/
theorem lightFrameIsJudgedInOrder : Obligations.LightFrameIsJudgedInOrder := by
  unfold Obligations.LightFrameIsJudgedInOrder
  refine ⟨fun s k => ⟨fun c h => State.lightFrameDone_saturated h, fun hsat => ⟨fun c w hc hw hbefore =>
      State.lightFrameDone_weak hsat hc hw hbefore, fun hall => ?_⟩⟩,
    fun s k w i hsat hall hi hle hbefore => ?_, fun k => rfl, fun s k o column w least => rfl, fun s k => ?_,
    fun s c k number count samples check hu hc hk hgood hd hlast hpos hcur => ?_,
    fun s => ⟨State.interruptCalibration_none, fun k hk => ?_⟩⟩
  · rw [State.lightFrameDone_calibrated hsat hall, ← calibratedRecord_eq]
    simp [State.endCalibration]
  · rw [State.lightFrameDone_calibrated hsat hall, calibratedRecord_eq, leastAt_eq_some hi hle hbefore]
  · intro dark
    exact ⟨fun h => if_pos h, fun h => if_neg (Nat.not_le.2 h)⟩
  · intro u mark kDark kLight
    rw [exec_line_good hu hc hgood, State.takeLine_last hd hlast, State.takeGood_last (c := { c with nextLine := c.nextLine + 1 }) hcur]
    refine ⟨fun hkind => ?_, fun hkind => ?_⟩
    · have hdark : k.addDark c.nextLine samples = kDark := k.addDark_of_pos hpos samples
      simp only [State.workDone, State.lineTaken, hd, Bool.false_eq_true, if_false, State.storeLine, hkind, State.fresh, hk,
        Option.map_some, hdark]
      rfl
    · have hlight : k.addLight c.nextLine samples = kLight := by
        rw [k.addLight_of_pos hpos samples]
        simp only [kLight, mark]
        congr 1
      simp only [State.workDone, State.lineTaken, hd, Bool.false_eq_true, if_false, State.storeLine, hkind, State.fresh, hk,
        Option.map_some, hlight]
      rfl
  · intro u ended
    refine ⟨fun c hc hkind => ⟨fun hst => ?_, fun hst => ?_⟩, fun h => State.interruptCalibration_other hk h⟩
    · rw [State.interruptCalibration_frame hk hc hkind]
      rcases hst with hst | hst
      · rw [State.abandon_moving hc hst]
        rfl
      · rw [State.abandon_readout_frame hc hst hkind]
        rfl
    · rw [State.interruptCalibration_frame hk hc hkind, State.abandon_exposing hc hst]
      rfl

/-! ### Answers to a move (04 R84 to R87) -/

section Answers

variable {s : State} {c : ExposureContext} {ms : Nat} (hu : s.unit.state = .moving) (hc : s.unit.context = some c)
include hu hc

theorem State.answered_answer (ht : s.unit.timer = .answer ms) : s.fresh.answered s.unit.moveSeq = some c := by
  simp [State.answered, State.fresh, hu, hc, ht]

theorem exec_answerTimerExpiry (ht : s.unit.timer = .answer ms) :
    exec .answerTimerExpiry s = .next (s.fresh.settle (s.fresh.moveFails c)) := by
  change execAnswerTimerExpiry s = _
  simp only [execAnswerTimerExpiry, hu, ht, hc]

theorem exec_busyWaitExpiry (ht : s.unit.timer = .busyWait ms) :
    exec .busyWaitExpiry s = .next (s.fresh.resendMove c) := by
  change execBusyWaitExpiry s = _
  simp only [execBusyWaitExpiry, hu, ht, hc]

end Answers

section ByAnswer

variable {s : State} {seq : BitVec 8}

theorem exec_answers_discarded (h : s.fresh.answered seq = none) :
    exec (.movingAnswer seq) s = .next s.fresh ∧ exec (.busyAnswer seq) s = .next s.fresh ∧
    exec (.faultAnswer seq) s = .next s.fresh ∧ exec (.doneAnswer seq) s = .next s.fresh := by
  change execMovingAnswer seq s = _ ∧ execBusyAnswer seq s = _ ∧ execFaultAnswer seq s = _ ∧ execDoneAnswer seq s = _
  simp only [execMovingAnswer, execBusyAnswer, execFaultAnswer, execDoneAnswer, h, and_self]

variable {c : ExposureContext} (h : s.fresh.answered seq = some c)
include h

theorem exec_movingAnswer : exec (.movingAnswer seq) s = .next (s.fresh.withTimer (.answer 50)) := by
  change execMovingAnswer seq s = _
  simp only [execMovingAnswer, h]

theorem exec_busyAnswer_waits (hlt : c.attempt < s.settings.retryLimit) :
    exec (.busyAnswer seq) s = .next (s.fresh.withTimer (.busyWait 10)) := by
  change execBusyAnswer seq s = _
  simp only [execBusyAnswer, h, if_pos hlt]

theorem exec_busyAnswer_fails (hle : s.settings.retryLimit ≤ c.attempt) :
    exec (.busyAnswer seq) s = .next (s.fresh.settle (s.fresh.moveFails c)) := by
  change execBusyAnswer seq s = _
  simp only [execBusyAnswer, h, if_neg (Nat.not_lt.2 hle)]

theorem exec_faultAnswer : exec (.faultAnswer seq) s = .next (s.fresh.settle (s.fresh.moveFails c)) := by
  change execFaultAnswer seq s = _
  simp only [execFaultAnswer, h]

theorem exec_doneAnswer :
    exec (.doneAnswer seq) s = .next (s.fresh.settle (s.fresh.withTimer .stopped).beginExposure) := by
  change execDoneAnswer seq s = _
  simp only [execDoneAnswer, h]

end ByAnswer

theorem State.answered_none {s : State} {seq : BitVec 8}
    (h : s.unit.state ≠ .moving ∨ seq ≠ s.unit.moveSeq ∨ ∃ ms, s.unit.timer = .busyWait ms) :
    s.fresh.answered seq = none := by
  rcases h with h | h | ⟨ms, h⟩ <;> simp [State.answered, State.fresh, h]

theorem State.marginEnds_of_registration {s : State} {r : Registration} (h : s.registration = some r)
    (o : RegOutcome) : s.marginEnds o = s.endRegistration r o none 0 := by
  simp only [State.marginEnds, h]

theorem State.calibrationFails_of_context {s : State} {k : CalContext} (h : s.calContext = some k) (o : CalOutcome) :
    s.calibrationFails o = s.endCalibration k o noFigures := by
  simp only [State.calibrationFails, h]

/-- Settles O42, by the answer and the client of a failed move. -/
theorem instrumentAnswersInMoving : Obligations.InstrumentAnswersInMoving := by
  unfold Obligations.InstrumentAnswersInMoving
  refine ⟨fun s seq => ⟨?_, fun c ms hu hc ht => exec_answerTimerExpiry hu hc ht, fun c ms hu hc ht => ?_,
      fun h => exec_answers_discarded (State.answered_none h)⟩,
    fun s c => ⟨rfl, fun id hk => ?_, fun r hk hr => ?_, fun k hk hcal => ?_⟩⟩
  · rintro c ms hu hc ht rfl
    have h := State.answered_answer hu hc ht
    exact ⟨exec_movingAnswer h, exec_busyAnswer_waits h, exec_busyAnswer_fails h, exec_faultAnswer h, exec_doneAnswer h⟩
  · exact ⟨_, exec_busyWaitExpiry hu hc ht, rfl, rfl, rfl⟩
  · simp only [State.moveFails, hk]
  · simp only [State.moveFails, hk]
    exact State.marginEnds_of_registration (s := s.unitIdle) hr _
  · have hends : s.moveFails c = s.unitIdle.calibrationFails .stage := by
      rcases hk with hk | hk <;> simp only [State.moveFails, hk]
    rw [hends, State.calibrationFails_of_context (s := s.unitIdle) hcal]
    rfl

/-! ### Charges (01 R12, R13) -/

section Charge

variable {s : State} {pl pl' : Plate} {f : Plate → ChargeAnswer × Plate} {slot : Nat} (hp : s.plate slot = some pl)
include hp

theorem State.charge_granted (h : f pl = (.granted, pl')) :
    s.charge slot f = (.granted, s.setPlate slot (some pl')) := by
  simp only [State.charge, hp, h]

theorem State.charge_refused {a : ChargeAnswer} (ha : a ≠ .granted) (h : f pl = (a, pl')) : s.charge slot f = (a, s) := by
  cases a with
  | granted => exact absurd rfl ha
  | doseLimit | notOnStage => simp only [State.charge, hp, h]

end Charge

/-- The charge that is asked of a plate for an exposure of a tile, or for its retake (01 R12, R13). -/
def Plate.tileCharge (pl : Plate) (tag cost : Nat) (retake : Bool) : ChargeAnswer × Plate :=
  if retake then pl.unreservedCharge .staged cost else pl.programCharge tag cost

section ChargeTile

variable {s : State} {tag : Nat} {g : Program} {pl pl' : Plate} {cost : Nat} {retake : Bool}
  (hg : s.program? tag = some g)
include hg

theorem State.chargeTile_fixed (ho : g.outcome ≠ none) : s.chargeTile tag cost retake = (.notOnStage, s) := by
  simp only [State.chargeTile, hg, if_pos ho]

variable (ho : g.outcome = none) (hp : s.plate g.content.slot = some pl)
include ho hp

theorem State.chargeTile_granted (h : pl.tileCharge tag cost retake = (.granted, pl')) :
    s.chargeTile tag cost retake = (.granted, (s.setPlate g.content.slot (some pl')).modProgram tag
      (fun g => { g with doseCharged := g.doseCharged + cost })) := by
  have hcharge := State.charge_granted (f := fun pl => pl.tileCharge tag cost retake) hp h
  simp only [Plate.tileCharge] at hcharge
  simp only [State.chargeTile, hg, ho, ne_eq, not_true_eq_false, if_false, hcharge]

theorem State.chargeTile_refused {a : ChargeAnswer} (ha : a ≠ .granted)
    (h : pl.tileCharge tag cost retake = (a, pl')) : s.chargeTile tag cost retake = (a, s) := by
  have hcharge := State.charge_refused (f := fun pl => pl.tileCharge tag cost retake) hp ha h
  simp only [Plate.tileCharge] at hcharge
  cases a with
  | granted => exact absurd rfl ha
  | doseLimit | notOnStage => simp only [State.chargeTile, hg, ho, ne_eq, not_true_eq_false, if_false, hcharge]

end ChargeTile

section ChargeMargin

variable {s : State} {r : Registration} {pl pl' : Plate} {cost : Nat} (hr : s.registration = some r)
  (hp : s.plate r.slot = some pl)
include hr hp

theorem State.chargeMargin_granted (h : pl.unreservedCharge .registering cost = (.granted, pl')) :
    s.chargeMargin cost = (.granted, { s.setPlate r.slot (some pl') with
      registration := some { r with doseCharged := r.doseCharged + cost } }) := by
  have hcharge := State.charge_granted (f := fun pl => pl.unreservedCharge .registering cost) hp h
  simp only [State.chargeMargin, hr, hcharge]

theorem State.chargeMargin_refused {a : ChargeAnswer} (ha : a ≠ .granted)
    (h : pl.unreservedCharge .registering cost = (a, pl')) : s.chargeMargin cost = (a, s) := by
  have hcharge := State.charge_refused (f := fun pl => pl.unreservedCharge .registering cost) hp ha h
  cases a with
  | granted => exact absurd rfl ha
  | doseLimit | notOnStage => simp only [State.chargeMargin, hr, hcharge]

end ChargeMargin

/-! ### Exposures and retakes (04 R88, R94) -/

theorem State.countRetake_of_context {s : State} {c : ExposureContext} (hc : s.unit.context = some c) :
    s.countRetake = { s with unit := { s.unit with context := some { c with retakes := c.retakes + 1 } } } := by
  simp only [State.countRetake, State.modContext, hc, Option.map_some]

section Expose

variable {s : State} {c : ExposureContext} {e : Exposure} (hc : s.unit.context = some c) (he : c.exposure? = some e)

theorem State.retake_tile {id : TileId} (hk : c.kind = .tile id) : s.retake c e =
    (if (s.chargeTile id.tag e.cost true).1 = .granted then (s.chargeTile id.tag e.cost true).2.countRetake
      else (s.chargeTile id.tag e.cost true).2).afterTileCharge id e.cost (s.chargeTile id.tag e.cost true).1 := by
  simp only [State.retake, hk]

theorem State.retake_margin (hk : c.kind = .margin) : s.retake c e =
    (if (s.chargeMargin e.cost).1 = .granted then (s.chargeMargin e.cost).2.countRetake.countMarginRetake
      else (s.chargeMargin e.cost).2).afterMarginCharge (s.chargeMargin e.cost).1 := by
  simp only [State.retake, hk]

include hc he

theorem State.startTake_of_exposure : s.startTake = { s with
    unit := { s.unit with state := .exposing, takeNumber := s.unit.takeNumber + 1, timer := .lamp e.time }
    lamp := if c.kind = .calDark then s.lamp else { level := c.level, gateOpen := true }
    sent := s.sent ++ [.start (s.unit.takeNumber + 1) c.c0 c.width c.height] } := by
  simp only [State.startTake, hc, he]
  rfl

theorem State.beginExposure_tile {id : TileId} (hk : c.kind = .tile id) : s.beginExposure =
    (s.chargeTile id.tag e.cost false).2.afterTileCharge id e.cost (s.chargeTile id.tag e.cost false).1 := by
  simp only [State.beginExposure, hc, he, hk]

theorem State.beginExposure_margin (hk : c.kind = .margin) : s.beginExposure =
    (s.chargeMargin e.cost).2.afterMarginCharge (s.chargeMargin e.cost).1 := by
  simp only [State.beginExposure, hc, he, hk]

theorem State.beginExposure_frame (hk : c.kind = .calDark ∨ c.kind = .calLight) : s.beginExposure = s.startTake := by
  rcases hk with hk | hk <;> simp only [State.beginExposure, hc, he, hk]

end Expose

/-- Settles O43: each charge of R12 and R13 with its answers, for the three kinds of work. -/
theorem tileExposureIsCharged : Obligations.TileExposureIsCharged := by
  unfold Obligations.TileExposureIsCharged
  refine ⟨fun s c e id g pl hand => ?_, fun s c e r pl hc he hk hr hp => ⟨fun pl' h => ?_, fun pl' h => ?_,
    fun pl' h => ?_⟩, fun s c e hc he => ?_⟩
  · obtain ⟨hc, he, hk, hg, hp⟩ := hand
    intro lost
    rw [State.beginExposure_tile hc he hk, State.retake_tile hk]
    have hdisc : c.kind ≠ .calDark := by simp [hk]
    refine ⟨fun o ho => ?_, fun ho => ⟨fun pl' h => ?_, fun pl' h => ?_, fun pl' h => ?_, fun pl' h => ?_,
      fun pl' h => ?_, fun pl' h => ?_⟩⟩
    · rw [State.chargeTile_fixed hg (by simp [ho]), State.chargeTile_fixed hg (by simp [ho])]
      exact ⟨rfl, rfl⟩
    · rw [State.chargeTile_granted hg ho hp (retake := false) h]
      simp only [State.afterTileCharge]
      rw [State.startTake_of_exposure (c := { c with doseCharged := c.doseCharged + e.cost }) (e := e)
        (by simp [State.modContext, hc]) he]
      simp [State.modContext, hc, hdisc, State.lt_of_plate hp, State.modProgram, State.plate]
    · rw [State.chargeTile_refused hg ho hp (retake := false) (by decide) h]
      rfl
    · rw [State.chargeTile_refused hg ho hp (retake := false) (by decide) h]
      rfl
    · rw [State.chargeTile_granted hg ho hp (retake := true) h]
      simp only [State.afterTileCharge, if_true]
      rw [State.startTake_of_exposure (c := { c with retakes := c.retakes + 1, doseCharged := c.doseCharged + e.cost })
        (e := e) (by simp [State.countRetake, State.modContext, hc]) he]
      simp [State.countRetake, State.modContext, hc, hdisc, State.lt_of_plate hp, State.modProgram, State.plate]
    · rw [State.chargeTile_refused hg ho hp (retake := true) (by decide) h]
      rfl
    · rw [State.chargeTile_refused hg ho hp (retake := true) (by decide) h]
      rfl
  · intro lit
    have hdisc : c.kind ≠ .calDark := by simp [hk]
    rw [State.beginExposure_margin hc he hk, State.retake_margin hk, State.chargeMargin_granted hr hp h]
    simp only [State.afterMarginCharge, if_true]
    refine ⟨(State.startTake_of_exposure (c := c) (by exact hc) he).trans ?_, ?_⟩
    · simp [lit, State.regPhase, hdisc, hc]
    · rw [State.countRetake_of_context (c := c) (by exact hc)]
      refine (State.startTake_of_exposure (c := { c with retakes := c.retakes + 1 }) (by rfl) he).trans ?_
      rw [if_neg hdisc]
      rfl
  · rw [State.beginExposure_margin hc he hk, State.retake_margin hk, State.chargeMargin_refused hr hp (by decide) h]
    exact ⟨State.marginEnds_of_registration (s := s.unitIdle) hr _, State.marginEnds_of_registration (s := s.unitIdle) hr _⟩
  · rw [State.beginExposure_margin hc he hk, State.retake_margin hk, State.chargeMargin_refused hr hp (by decide) h]
    exact ⟨rfl, rfl⟩
  · intro begun
    refine ⟨fun hk => ?_, fun hk => ?_⟩
    · rw [State.beginExposure_frame hc he (.inl hk), State.startTake_of_exposure hc he, if_pos hk]
    · rw [State.beginExposure_frame hc he (.inr hk), State.startTake_of_exposure hc he, if_neg (by simp [hk])]

end Sys2Proof.Machine

end

section
/-! A good line: where it goes, how it is read back, and what the last one of a take brings about. -/

namespace Sys2Proof.Machine

/-! ### A good line (04 R90) -/

theorem toNat_lineCheck (number : BitVec 16) (samples : List Sample) :
    (lineCheck number samples).toNat = (number.toNat + (samples.map BitVec.toNat).sum) % 65536 := by
  unfold lineCheck
  induction samples generalizing number with
  | nil =>
    have hlt := number.isLt
    simp only [List.foldl_nil, List.map_nil, List.sum_nil]
    omega
  | cons v samples ih =>
    rw [List.foldl_cons, ih, BitVec.toNat_add, List.map_cons, List.sum_cons]
    omega

theorem lineGood_iff (c : ExposureContext) (number count : BitVec 16) (samples : List Sample) (check : BitVec 16) :
    lineGood c number count samples check = true ↔
      check.toNat = (number.toNat + (samples.map BitVec.toNat).sum) % 65536 ∧ number.toNat = c.nextLine ∧
      count.toNat = c.width ∧ samples.length = c.width ∧ ∀ v ∈ samples, v.toNat ≤ 16383 := by
  rw [← toNat_lineCheck, ← BitVec.toNat_eq]
  simp [lineGood, and_assoc]

/-! ### Where a line goes (04 R93) -/

section Store

variable {s : State} {c : ExposureContext} {samples : List Sample}

theorem State.storeLine_eq (s : State) (c : ExposureContext) (y : Nat) (samples : List Sample) :
    s.storeLine c y samples = { s with
      pages := (s.storeLine c y samples).pages, registration := (s.storeLine c y samples).registration
      calContext := (s.storeLine c y samples).calContext } := by
  unfold State.storeLine
  repeat' split
  all_goals rfl

theorem State.lineTaken_eq (s : State) (c : ExposureContext) (samples : List Sample) : s.lineTaken c samples = { s with
    unit := (s.lineTaken c samples).unit, pages := (s.lineTaken c samples).pages
    registration := (s.lineTaken c samples).registration, calContext := (s.lineTaken c samples).calContext } := by
  unfold State.lineTaken
  split
  · rfl
  · rw [State.storeLine_eq]

theorem State.lineTaken_disposed (hd : c.disposal = true) :
    s.lineTaken c samples = { s with unit := (s.lineTaken c samples).unit } := by
  simp only [State.lineTaken, if_pos hd]

theorem State.lineTaken_kept (hd : c.disposal = false) : s.lineTaken c samples =
    { s.storeLine c c.nextLine samples with unit := (s.lineTaken c samples).unit } := by
  simp [State.lineTaken, hd]

variable {y : Nat}

theorem State.storeLine_tile {id : TileId} {t : TileEntry} {chain : List Nat} (hk : c.kind = .tile id)
    (ht : s.tile? id = some t) (hchain : t.raws[c.current - 1]? = some chain) :
    s.storeLine c y samples = { s with pages := Memory.writeLine s.pages chain c.width y samples } := by
  simp only [State.storeLine, hk, ht, List.getD_eq_getElem?_getD, hchain, Option.getD_some]

theorem State.storeLine_margin {r : Registration} (hk : c.kind = .margin) (hr : s.registration = some r)
    (hlen : r.buffer.length = y) :
    s.storeLine c y samples = { s with registration := some { r with buffer := r.buffer ++ [samples] } } := by
  simp only [State.storeLine, hk, hr, Option.map_some, List.take_of_length_le hlen.le]

theorem State.storeLine_dark {k : CalContext} (hk : c.kind = .calDark) (hcal : s.calContext = some k) :
    s.storeLine c y samples = { s with calContext := some (k.addDark y samples) } := by
  simp only [State.storeLine, hk, hcal, Option.map_some]

theorem State.storeLine_light {k : CalContext} (hk : c.kind = .calLight) (hcal : s.calContext = some k) :
    s.storeLine c y samples = { s with calContext := some (k.addLight y samples) } := by
  simp only [State.storeLine, hk, hcal, Option.map_some]

end Store

theorem CalContext.addLight_zero (k : CalContext) (samples : List Sample) : k.addLight 0 samples = { k with
    columnSums := samples.map BitVec.toNat, saturation := samples.findIdx? (fun v => decide (v.toNat = 16383)) } := rfl

/-- A line leaves the bytes outside its place in the chain. -/
theorem Memory.read_writeLine_of_not_mem {pages : List Host.Cell} {chain : List Nat} {width y a : Nat}
    {samples : List Sample} (hlen : samples.length = width)
    (h : ∀ j, j < 2 * width → Memory.chainAddress chain (y * width * 2 + j) ≠ some a) :
    Memory.read (Memory.writeLine pages chain width y samples) a = Memory.read pages a :=
  Memory.read_writeChain_of_not_mem _ _ _ _ _ fun i hi => h i (by rwa [sampleBytes_length, hlen] at hi)

/-! ### A line is read back as it was (07 R148) -/

section ReadBack

variable {pages : List Host.Cell} {chain : List Nat} {width y : Nat} {samples : List Sample} (hnodup : chain.Nodup)
  (hlen : samples.length = width) (hfit : (y + 1) * width * 2 ≤ 65536 * chain.length)
include hnodup hlen hfit

theorem Memory.readLine_writeLine :
    Memory.readLine (Memory.writeLine pages chain width y samples) chain width y = samples := by
  have hbytes : (sampleBytes samples).length = width * 2 := by rw [sampleBytes_length, hlen, Nat.mul_comm]
  have hroom : y * width * 2 + (sampleBytes samples).length ≤ pageSize * chain.length := by
    rw [hbytes, pageSize, ← Nat.add_mul, ← Nat.succ_mul]
    exact hfit
  have hread := Memory.readChain_writeChain pages hnodup _ _ hroom
  rw [Memory.readLine, Memory.writeLine, ← hbytes, hread, bytesSamples_sampleBytes]

omit hnodup hlen in
/-- The two bytes of sample `j` stand one after the other in one page. -/
theorem Memory.chainAddress_sample {j : Nat} (hj : j < width) : ∃ page,
    chain[(y * width * 2 + 2 * j) / 65536]? = some page ∧
    Memory.chainAddress chain (y * width * 2 + 2 * j) = some (page * 65536 + (y * width * 2 + 2 * j) % 65536) ∧
    Memory.chainAddress chain (y * width * 2 + 2 * j + 1) =
      some (page * 65536 + (y * width * 2 + 2 * j) % 65536 + 1) := by
  have hsplit : (y + 1) * width * 2 = y * width * 2 + width * 2 := by rw [Nat.succ_mul, Nat.add_mul]
  have hin : (y * width * 2 + 2 * j) / 65536 < chain.length := Nat.div_lt_of_lt_mul (by omega)
  have hpage : (y * width * 2 + 2 * j + 1) / pageSize = (y * width * 2 + 2 * j) / 65536 := by
    unfold pageSize
    omega
  have hoff : (y * width * 2 + 2 * j + 1) % pageSize = (y * width * 2 + 2 * j) % 65536 + 1 := by
    unfold pageSize
    omega
  refine ⟨_, List.getElem?_eq_getElem hin, ?_, ?_⟩
  · rw [Memory.chainAddress_eq, pageSize, List.getElem?_eq_getElem hin, Option.map_some]
  · rw [Memory.chainAddress_eq, hpage, hoff, List.getElem?_eq_getElem hin, Option.map_some, pageSize, Nat.add_assoc]

omit hlen hfit in
theorem Memory.read_writeLine_sample {j x : Nat} {v : Sample} (hv : samples[j]? = some v)
    (hlow : Memory.chainAddress chain (y * width * 2 + 2 * j) = some x)
    (hhigh : Memory.chainAddress chain (y * width * 2 + 2 * j + 1) = some (x + 1)) :
    (Memory.read (Memory.writeLine pages chain width y samples) x).toNat = v.toNat % 256 ∧
    (Memory.read (Memory.writeLine pages chain width y samples) (x + 1)).toNat = v.toNat / 256 := by
  obtain ⟨hbyte, hnext⟩ := sampleBytes_get samples j
  obtain ⟨hj, -⟩ := List.getElem?_eq_some_iff.1 hv
  have hlow' := Memory.read_writeChain pages hnodup (y * width * 2) (sampleBytes samples) (i := 2 * j)
    (by rw [sampleBytes_length]; omega) hlow
  have hhigh' := Memory.read_writeChain pages hnodup (y * width * 2) (sampleBytes samples) (i := 2 * j + 1)
    (by rw [sampleBytes_length]; omega) hhigh
  have hv' := v.isLt
  rw [Memory.writeLine, hlow', hhigh', List.getD_eq_getElem?_getD, List.getD_eq_getElem?_getD, hbyte, hnext, hv]
  simp only [Option.map_some, Option.getD_some, BitVec.toNat_setWidth, BitVec.toNat_ushiftRight, Nat.shiftRight_eq_div_pow,
    Nat.reducePow]
  exact ⟨trivial, by omega⟩

end ReadBack

/-! ### The tile that is captured (03 R64, 06 R121) -/

section Join

variable {s : State} {id : TileId} {g : Program} {d : TileDesc}

theorem State.joinMerge_behind (h : s.mergeQueue ≠ []) (dose : Nat) : s.joinMerge id dose =
    { s.modTile id (fun t => { t with state := .mergeWait, stats := t.stats.map (fun x => { x with dose := dose }) }) with
      mergeQueue := s.mergeQueue ++ [id] } := by
  simp only [State.joinMerge, if_neg h]

theorem State.beginMerge_of_tile (hg : s.program? id.tag = some g) (hd : g.content.tiles[id.index]? = some d) :
    s.beginMerge id = { s.modTile id (fun t => { t with
        state := .merging, writer := true, fill := 0
        stats := t.stats.map (statsAtMerge (mergeContextOf g d id)) }) with
      mergeContext := some (mergeContextOf g d id) } := by
  simp only [State.beginMerge, hg, hd]

theorem State.joinMerge_head (hg : s.program? id.tag = some g) (hd : g.content.tiles[id.index]? = some d)
    (h : s.mergeQueue = []) (dose : Nat) : s.joinMerge id dose = { s.modTile id (fun t => { t with
        state := .merging, writer := true, fill := 0
        stats := (t.stats.map (fun x => { x with dose := dose })).map (statsAtMerge (mergeContextOf g d id)) }) with
      mergeQueue := s.mergeQueue ++ [id], mergeContext := some (mergeContextOf g d id) } := by
  simp only [State.joinMerge, if_pos h]
  rw [State.beginMerge_of_tile (g := g) (d := d) (by exact hg) hd]
  have htwice := State.modTile_modTile s id
    (fun t => { t with state := .mergeWait, stats := t.stats.map (fun x => { x with dose := dose }) })
    (fun t => { t with
      state := .merging, writer := true, fill := 0, stats := t.stats.map (statsAtMerge (mergeContextOf g d id)) })
    (fun _ => rfl)
  exact congrArg
    (fun u : State => { u with mergeQueue := s.mergeQueue ++ [id], mergeContext := some (mergeContextOf g d id) }) htwice

end Join

section Captured

variable {s : State} {id : TileId} {g : Program}

/-- The state in which a captured tile's program counts the tile and goes on (03 R64). -/
def State.tileJoined (s : State) (id : TileId) (dose : Nat) (f : Program → Program) : State :=
  (s.joinMerge id dose).modProgram id.tag (fun x =>
    f { x with tilesInMerge := x.tilesInMerge + 1, nextTile := id.index + 1 })

theorem State.tileJoined_eq (s : State) (id : TileId) (dose : Nat) (f : Program → Program) : s.tileJoined id dose f =
    { s.joinMerge id dose with programs := s.programs.map (fun x => if x.tag = id.tag then
        f { x with tilesInMerge := x.tilesInMerge + 1, nextTile := id.index + 1 } else x) } := by
  rw [State.tileJoined, State.modProgram, show (s.joinMerge id dose).programs = s.programs by simp]

theorem State.modProgram_tileJoined (s : State) (id : TileId) (dose : Nat) (f : Program → Program) :
    (s.tileJoined id dose (fun x => x)).modProgram id.tag f = s.tileJoined id dose f :=
  State.modProgram_modProgram _ _ _ _ fun _ => rfl

variable (hg : s.program? id.tag = some g) (dose : Nat)
include hg

theorem State.program?_tileJoined : (s.tileJoined id dose (fun x => x)).program? id.tag =
    some { g with tilesInMerge := g.tilesInMerge + 1, nextTile := id.index + 1 } := by
  rw [State.tileJoined, State.program?_modProgram _ _ _ (by exact fun _ => rfl), State.program?,
    show (s.joinMerge id dose).programs = s.programs by simp]
  exact congrArg _ hg

theorem State.captured_fixed {o : ProgramOutcome} (ho : g.outcome = some o) : s.captured id dose =
    (s.tileJoined id dose (fun x => x)).endCapture id.tag
      (if id.index + 1 < g.content.tiles.length then some (id.index + 1) else none) := by
  have hjoined := State.program?_tileJoined hg dose
  simp only [State.tileJoined] at hjoined
  simp only [State.captured, hjoined, ho, State.tileJoined]

theorem State.captured_next (ho : g.outcome = none) (hlt : id.index + 1 < g.content.tiles.length) :
    s.captured id dose = s.tileJoined id dose (fun x => { x with captureStep := some .storeWait }) := by
  have hjoined := State.program?_tileJoined hg dose
  simp only [State.tileJoined] at hjoined
  simp only [State.captured, hjoined, ho, if_pos hlt]
  exact State.modProgram_tileJoined _ _ _ _

theorem State.captured_last (ho : g.outcome = none) (hle : g.content.tiles.length ≤ id.index + 1) :
    s.captured id dose = (s.tileJoined id dose (fun x => { x with
      outcome := some (x.outcome.getD .completed) })).endCapture id.tag none := by
  have hjoined := State.program?_tileJoined hg dose
  simp only [State.tileJoined] at hjoined
  simp only [State.captured, hjoined, ho, if_neg (Nat.not_lt.2 hle)]
  exact congrArg (fun u : State => u.endCapture id.tag none) (State.modProgram_tileJoined _ _ _ _)

end Captured

/-! ### The end of a good take (04 R91) -/

section Done

variable {s : State} {c : ExposureContext}

theorem State.workDone_tile {id : TileId} (hk : c.kind = .tile id) :
    s.workDone c = s.unitIdle.captured id c.doseCharged := by
  simp only [State.workDone, hk]

theorem State.workDone_margin (hk : c.kind = .margin) : s.workDone c = s.unitIdle.regPhase .measuring := by
  simp only [State.workDone, hk]

theorem State.workDone_dark {k : CalContext} (hk : c.kind = .calDark) (hcal : s.calContext = some k) :
    s.workDone c = s.unitIdle.darkFrameDone k := by
  simp only [State.workDone, hk, hcal]

theorem State.workDone_light {k : CalContext} (hk : c.kind = .calLight) (hcal : s.calContext = some k) :
    s.workDone c = s.unitIdle.lightFrameDone k := by
  simp only [State.workDone, hk, hcal]

theorem State.takeGood_next (h : c.current < c.exposures.length) : s.takeGood c =
    (s.modContext (fun c => { c with current := c.current + 1, retakes := 0 })).beginExposure :=
  if_pos h

end Done

/-- Settles O45: the line by kind of work (`State.storeLine`), the memory laws of a chain, and the captured tile. -/
theorem goodLineIsStored : Obligations.GoodLineIsStored := by
  unfold Obligations.GoodLineIsStored
  refine ⟨fun s c number count samples check hu hc hgood => ?_, lineGood_iff,
    fun pages chain width y samples hnodup hlen hfit => ?_, fun s id dose g d hg hd => ?_, fun s id dose g hg => ?_⟩
  · rw [exec_line_good hu hc hgood]
    obtain ⟨-, -, -, hlen, -⟩ := (lineGood_iff _ _ _ _ _).1 hgood
    refine ⟨s.fresh.lineTaken c samples, fun h => ?_, fun hlast hd => ?_, fun hlast hd => ?_, rfl,
      State.lineTaken_eq s.fresh c samples, fun hd => State.lineTaken_disposed hd, fun hd =>
      ⟨fun id t chain hk ht hchain => ⟨?_, fun a ha => ?_⟩, fun r hk hr hbuf => ?_, fun k hk hcal => ?_, fun k hk hcal => ?_⟩⟩
    · rw [State.takeLine_middle h]
    · rw [State.takeLine_disposed hd hlast]
    · intro answers
      simp only [answers, State.takeLine_last hd hlast]
      refine ⟨fun hlt => ?_, fun hle => ?_⟩
      · rw [State.takeGood_next (c := { c with nextLine := c.nextLine + 1 }) hlt]
        rfl
      · rw [State.takeGood_last (c := { c with nextLine := c.nextLine + 1 }) hle]
        refine ⟨fun id hk => ?_, fun hk => ?_, fun k hk hcal => ?_, fun k hk hcal => ?_⟩
        · rw [State.workDone_tile (c := { c with nextLine := c.nextLine + 1 }) hk]
        · rw [State.workDone_margin (c := { c with nextLine := c.nextLine + 1 }) hk]
          rfl
        · rw [State.workDone_dark (c := { c with nextLine := c.nextLine + 1 }) hk hcal]
        · rw [State.workDone_light (c := { c with nextLine := c.nextLine + 1 }) hk hcal]
    · exact (State.lineTaken_kept hd).trans (by rw [State.storeLine_tile (s := s.fresh) hk ht hchain]; rfl)
    · rw [State.lineTaken_kept hd, State.storeLine_tile (s := s.fresh) hk ht hchain]
      exact Memory.read_writeLine_of_not_mem hlen ha
    · exact (State.lineTaken_kept hd).trans (by rw [State.storeLine_margin (s := s.fresh) hk hr hbuf]; rfl)
    · exact (State.lineTaken_kept hd).trans (by rw [State.storeLine_dark (s := s.fresh) hk hcal]; rfl)
    · intro mark
      refine ⟨fun hy => ?_, fun hy => ?_⟩
      · refine (State.lineTaken_kept hd).trans ?_
        rw [State.storeLine_light (s := s.fresh) hk hcal, hy, CalContext.addLight_zero]
        rfl
      · refine (State.lineTaken_kept hd).trans ?_
        rw [State.storeLine_light (s := s.fresh) hk hcal, CalContext.addLight_of_pos k hy]
        rfl
  · intro stored
    refine ⟨Memory.readLine_writeLine hnodup hlen hfit, fun j v hv => ?_⟩
    obtain ⟨hj, -⟩ := List.getElem?_eq_some_iff.1 hv
    obtain ⟨page, hpage, hlow, hhigh⟩ := Memory.chainAddress_sample hfit (hlen ▸ hj)
    obtain ⟨hread, hnext⟩ := Memory.read_writeLine_sample (pages := pages) hnodup hv hlow hhigh
    exact ⟨page, hpage, hlow, hhigh, hread, hnext⟩
  · intro joined
    refine ⟨fun h => State.joinMerge_behind h dose, fun h => ?_⟩
    rw [State.joinMerge_head hg hd h dose]
    simp only [Option.map_map]
    rfl
  · intro next captured
    refine ⟨fun ho hlt => ?_, fun ho hle => ?_, fun o ho => ?_⟩
    · rw [State.captured_next hg dose ho hlt, State.tileJoined_eq]
    · rw [State.captured_last hg dose ho hle, State.tileJoined_eq]
    · rw [State.captured_fixed hg dose ho, State.tileJoined_eq]

end Sys2Proof.Machine

end

section
/-! Faulty takes and their retakes, the tile that fails, and the work that waits for pages or for the unit. -/

namespace Sys2Proof.Machine

/-! ### Faulty takes (04 R89, R90, R92, R94, R96) -/

section Faulty

variable {s : State} {c : ExposureContext} {take : BitVec 8} {number count : BitVec 16} {samples : List Sample}
  {check : BitVec 16} (hc : s.unit.context = some c)

theorem exec_line_stray (h : take ≠ s.unit.takeNumber ∨ s.unit.state = .idle ∨ s.unit.state = .moving) :
    exec (.line take number count samples check) s = .next s.fresh := by
  change execLine _ _ _ _ _ s = _
  rcases h with h | h | h <;> simp [execLine, h]

theorem exec_sensorError_stray (h : take ≠ s.unit.takeNumber ∨ s.unit.state = .idle ∨ s.unit.state = .moving) :
    exec (.sensorError take) s = .next s.fresh := by
  change execSensorError _ s = _
  rcases h with h | h | h <;> simp [execSensorError, h]

theorem exec_lineTimerExpiry {ms : Nat} (hu : s.unit.state = .readout) (ht : s.unit.timer = .line ms) :
    exec .lineTimerExpiry s = .next (s.fresh.settle s.fresh.takeFaulty) := by
  change execLineTimerExpiry s = _
  simp only [execLineTimerExpiry, hu, ht]

include hc

theorem exec_line_bad (hu : s.unit.state = .readout) (htake : take = s.unit.takeNumber)
    (hbad : lineGood c number count samples check = false) :
    exec (.line take number count samples check) s = .next (s.fresh.settle s.fresh.takeFaulty) := by
  change execLine _ _ _ _ _ s = _
  simp only [execLine, if_pos htake, hu, hc, hbad, Bool.false_eq_true, if_false]

theorem exec_sensorError_readout (hu : s.unit.state = .readout) (htake : take = s.unit.takeNumber) :
    exec (.sensorError take) s = .next (s.fresh.settle s.fresh.takeFaulty) := by
  change execSensorError _ s = _
  simp only [execSensorError, if_pos htake, hu, hc]

theorem exec_line_exposing (hu : s.unit.state = .exposing) (htake : take = s.unit.takeNumber) :
    exec (.line take number count samples check) s = .next (s.fresh.settle s.fresh.stopTake.takeFaulty) := by
  change execLine _ _ _ _ _ s = _
  simp only [execLine, if_pos htake, hu, hc]

theorem exec_sensorError_exposing (hu : s.unit.state = .exposing) (htake : take = s.unit.takeNumber) :
    exec (.sensorError take) s = .next (s.fresh.settle s.fresh.stopTake.takeFaulty) := by
  change execSensorError _ s = _
  simp only [execSensorError, if_pos htake, hu, hc]

theorem State.takeFaulty_disposed (hd : c.disposal = true) : s.takeFaulty = s.unitIdle := by
  simp only [State.takeFaulty, hc, if_pos hd]

variable (hd : c.disposal = false)
include hd

theorem State.takeFaulty_again {e : Exposure} (he : c.exposure? = some e) (h : c.retakes < 2) :
    s.takeFaulty = s.retake c e := by
  simp only [State.takeFaulty, hc, hd, Bool.false_eq_true, if_false, if_pos h, he]

theorem State.takeFaulty_third (h : 2 ≤ c.retakes) : s.takeFaulty = s.sensorFails c := by
  simp only [State.takeFaulty, hc, hd, Bool.false_eq_true, if_false, if_neg (Nat.not_lt.2 h)]

end Faulty

theorem State.retake_frame {s : State} {c : ExposureContext} {e : Exposure} (hc : s.unit.context = some c)
    (he : c.exposure? = some e) (hk : c.kind = .calDark ∨ c.kind = .calLight) : s.retake c e = { s with
      unit := { s.unit with
        state := .exposing, context := some { c with retakes := c.retakes + 1 }, takeNumber := s.unit.takeNumber + 1
        timer := .lamp e.time }
      lamp := if c.kind = .calDark then s.lamp else { level := c.level, gateOpen := true }
      sent := s.sent ++ [.start (s.unit.takeNumber + 1) c.c0 c.width c.height] } := by
  have htake : s.retake c e = s.countRetake.startTake := by rcases hk with hk | hk <;> simp only [State.retake, hk]
  rw [htake, State.countRetake_of_context hc]
  exact State.startTake_of_exposure (c := { c with retakes := c.retakes + 1 }) (by rfl) he

/-! ### The tile that fails (07 R159, 08 R178, R189) -/

section Drain

variable {s : State} {t : TileEntry} {p : Port} {kind : ReadKind} {r : Read}

theorem State.failDrain_none (h : t.reader = none) : s.failDrain t = s := by
  simp only [State.failDrain, h]

variable (h : t.reader = some (p, kind)) (hr : (s.port p).read = some r)
include h hr

theorem State.failDrain_attached (hstands : (s.port p).streamStands = true) : s.failDrain t =
    s.setPort p { (s.port p).attachClose (closeMessage r.tag (closeRecord r t .failed)) with read := none } := by
  simp only [State.failDrain, h, hr, if_pos hstands]

variable (hno : (s.port p).streamStands = false)
include hno

theorem State.failDrain_placed (hcan : (s.port p).canTake = true) : s.failDrain t =
    (s.setPort p { s.port p with read := none }).place p
      (.message (closeMessage r.tag (closeRecord r t .failed))) := by
  have hcan' : ((s.setPort p { s.port p with read := none }).port p).canTake = true := by
    rw [State.port_setPort_self]
    exact hcan
  rw [State.place_of_canTake hcan', State.port_setPort_self, State.setPort_setPort]
  simp only [State.failDrain, h, hr, hno, Bool.false_eq_true, if_false, if_pos hcan]

theorem State.failDrain_waits (hcan : (s.port p).canTake = false) : s.failDrain t =
    s.setPort p { s.port p with
      read := some { r with outcome := some .failed, waitingClose := some (closeRecord r t .failed) } } := by
  simp only [State.failDrain, h, hr, hno, Bool.false_eq_true, if_false, hcan]

end Drain

theorem State.turnEntry_setPort (s : State) (p : Port) (q : PortState) (id : TileId) (st : EntryState) :
    (s.setPort p q).turnEntry id st = (s.turnEntry id st).setPort p q := by
  cases p <;> rfl

theorem State.turnEntry_place (s : State) (p : Port) (e : OutEntry) (id : TileId) (st : EntryState) :
    (s.place p e).turnEntry id st = (s.turnEntry id st).place p e := by
  cases p <;> rfl

/-- A failed tile's pages, its entry, and the WAITING entries for it; its drain is `failDrain`'s. -/
def State.tileFailed (s : State) (id : TileId) (t : TileEntry) : State :=
  (s.returnPages (t.output ++ t.raws.flatten)).modTile id (fun t =>
    { t with state := .failed, output := [], raws := [], fill := 0, reader := none, consume := false, stats := none })

theorem State.port_tileFailed (s : State) (id : TileId) (t : TileEntry) (p : Port) :
    (s.tileFailed id t).port p = s.port p := by
  cases p <;> rfl

theorem State.failTile_none {s : State} {id : TileId} (h : s.tile? id = none) : s.failTile id = s := by
  simp only [State.failTile, h]

theorem State.failTile_of_tile {s : State} {id : TileId} {t : TileEntry} (h : s.tile? id = some t) :
    s.failTile id = ((s.tileFailed id t).failDrain t).turnEntry id .failed := by
  simp only [State.failTile, h]
  rfl

/-- The closing record takes the place of the run of the open read's one stream entry (08 R171). -/
theorem PortState.attachClose_of_split {q : PortState} {before after : List OutEntry} {x : StreamEntry}
    (hout : q.outbound = before ++ .stream x :: after) (hopen : x.isOpen = true)
    (hone : ∀ e ∈ before ++ after, e.isOpenStream = false) (m : OutMessage) : q.attachClose m =
      { q with outbound := before ++ .stream { x with count := 0, close := some m, isOpen := false } :: after } := by
  rw [PortState.attachClose, PortState.modStream, hout, OutEntry.map_modOpen_of_split _ hopen
    (fun e he => hone e (by simp [he])) (fun e he => hone e (by simp [he]))]

/-- Settles O46: the faulty take by its count, and the failure of a tile by what its drain finds on its port's list. -/
theorem faultyTakesAreRetakenTwice : Obligations.FaultyTakesAreRetakenTwice := by
  unfold Obligations.FaultyTakesAreRetakenTwice
  refine ⟨fun s c take number count samples check hc => ⟨exec_line_bad hc, exec_sensorError_readout hc,
      fun ms hu ht => exec_lineTimerExpiry hu ht,
      fun hu htake => ⟨exec_line_exposing hc hu htake, exec_sensorError_exposing hc hu htake⟩,
      fun h => ⟨exec_line_stray h, exec_sensorError_stray h⟩⟩,
    fun s c e hc he => ⟨State.takeFaulty_disposed hc, fun hd h => State.takeFaulty_again hc hd he h,
      fun hd h => ?_, fun hk => ?_⟩,
    fun s id => ⟨State.failTile_none, fun t ht => ?_⟩, fun s id o => ?_⟩
  · rw [State.takeFaulty_third hc hd h]
    refine ⟨fun id hk => ?_, fun r hk hr => ?_, fun k hk hcal => ?_⟩
    · simp only [State.sensorFails, hk]
    · simp only [State.sensorFails, hk]
      exact State.marginEnds_of_registration (s := s.unitIdle) hr _
    · have hends : s.sensorFails c = s.unitIdle.calibrationFails .sensor := by
        rcases hk with hk | hk <;> simp only [State.sensorFails, hk]
      exact hends.trans (State.calibrationFails_of_context (s := s.unitIdle) hcal _)
  · rw [State.retake_frame hc he hk]
    exact ⟨rfl, rfl, fun hk => if_pos hk, fun hk => if_neg (by simp [hk])⟩
  · intro failed
    have hfailed : (s.tileFailed id t).turnEntry id .failed = failed := rfl
    rw [State.failTile_of_tile ht]
    refine ⟨fun hnone => by rw [State.failDrain_none hnone, hfailed], fun p kind r hreader hread => ?_⟩
    intro record closing
    have hport := s.port_tileFailed id t p
    have hread' : ((s.tileFailed id t).port p).read = some r := by rw [hport, hread]
    refine ⟨fun before x after hout hopen hone => ?_, fun hno => ⟨fun hup hroom => ?_, fun hfull => ?_⟩⟩
    · have hout' : ((s.tileFailed id t).port p).outbound = before ++ .stream x :: after := by rw [hport, hout]
      rw [State.failDrain_attached hreader hread' (PortState.streamStands_of_split hout' hopen), State.turnEntry_setPort,
        hfailed, PortState.attachClose_of_split hout' hopen hone, hport]
      rfl
    · have hstands : ((s.tileFailed id t).port p).streamStands = false := by
        rw [hport]
        exact (PortState.streamStands_eq_false_iff _).2 hno
      rw [State.failDrain_placed hreader hread' hstands (by rw [hport]; exact (PortState.canTake_iff _).2 ⟨hup, hroom⟩),
        State.turnEntry_place, State.turnEntry_setPort, hfailed, hport]
      rfl
    · have hstands : ((s.tileFailed id t).port p).streamStands = false := by
        rw [hport]
        exact (PortState.streamStands_eq_false_iff _).2 hno
      rw [State.failDrain_waits hreader hread' hstands (by rw [hport]; exact (PortState.canTake_false_iff _).2 hfull),
        State.turnEntry_setPort, hfailed, hport]
      rfl
  · rw [State.captureFailed, State.fixOutcome, State.modProgram, show (s.failTile id).programs = s.programs by simp]

/-! ### Waiting work (07 R152 to R154, 03 R62, R63, 04 R80) -/

theorem takeChains_length (size k : Nat) (l : List Nat) : (takeChains size k l).length = k := by
  induction k generalizing l with
  | zero => rfl
  | succ k ih => rw [takeChains, List.length_cons, ih]

theorem length_of_mem_takeChains {size k : Nat} {l : List Nat} (h : k * size ≤ l.length) {chain : List Nat}
    (hmem : chain ∈ takeChains size k l) : chain.length = size := by
  induction k generalizing l with
  | zero => simp [takeChains] at hmem
  | succ k ih =>
    rw [Nat.succ_mul] at h
    rcases List.mem_cons.1 hmem with rfl | hmem
    · rw [List.length_take]
      omega
    · exact ih (by rw [List.length_drop]; omega) hmem

section Grant

variable {s : State} {r : AllocRequest} (hr : s.allocWaiting = some r)

theorem State.canGrant_iff (s : State) (r : AllocRequest) : s.canGrant r = true ↔
    (1 + r.n) * ((r.width * r.height * 2 + 65535) / 65536) ≤ s.freePages.length ∧ s.directory.length < 128 := by
  rw [State.canGrant, Bool.and_eq_true, decide_eq_true_eq, decide_eq_true_eq]
  exact Iff.rfl

include hr

theorem State.grantWaiting_refused (h : ¬ s.canGrant r = true) : s.grantWaiting = s := by
  simp only [State.grantWaiting, hr, if_neg h]

theorem State.grantWaiting_granted (h : s.canGrant r = true) : s.grantWaiting =
    ((s.grant r).modProgram r.id.tag (fun g => { g with captureStep := some .unitWait })).handTile := by
  simp only [State.grantWaiting, hr, if_pos h]

end Grant

section Hand

variable {s : State} {g : Program} {c : CalParams} {d : TileDesc}

theorem State.handTile_idle (hg : s.running = some g) (hc : s.cal.params = some c)
    (hd : g.content.tiles[g.nextTile]? = some d) (hstep : g.captureStep = some .unitWait) (hu : s.unit.state = .idle) :
    s.handTile =
      (s.startMove (tileContext s g c d)).modProgram g.tag (fun g => { g with captureStep := some .inUnit }) := by
  simp only [State.handTile, hg, hc, hd, if_pos (And.intro hstep hu)]

theorem State.offerUnit_tile (hg : s.running = some g) (hc : s.cal.params = some c)
    (hd : g.content.tiles[g.nextTile]? = some d) (hstep : g.captureStep = some .unitWait) (hu : s.unit.state = .idle) :
    s.offerUnit =
      (s.startMove (tileContext s g c d)).modProgram g.tag (fun g => { g with captureStep := some .inUnit }) := by
  rw [State.offerUnit, State.handTile_idle hg hc hd hstep hu, State.handMargin_busy]
  exact nofun

theorem State.offerUnit_margin {r : Registration} (hno : ∀ g, s.running = some g → g.captureStep ≠ some .unitWait)
    (hr : s.registration = some r) (hc : s.cal.params = some c) (hph : r.phase = .waitUnit)
    (hu : s.unit.state = .idle) :
    s.offerUnit = { s with registration := some { r with phase := .moving } }.startMove (marginContext s r c) := by
  rw [State.offerUnit, State.handTile_of_not_waiting hno, State.handMargin_idle hr hc hph hu]

theorem State.offerUnit_no_registration (h : s.registration = none) : s.offerUnit = s.handTile := by
  rw [State.offerUnit, State.handMargin_of_not_waiting]
  simp [h]

end Hand

section Request

variable {s : State} {g : Program}

theorem State.requestAllocation_waiting (h : s.allocWaiting ≠ none) : s.requestAllocation = s := by
  unfold State.requestAllocation
  split
  · rfl
  · split
    · rfl
    · rw [if_neg (fun hasks => h hasks.2.1)]

variable (hg : s.running = some g)
include hg

theorem State.requestAllocation_other (h : g.captureStep ≠ some .storeWait) : s.requestAllocation = s :=
  State.requestAllocation_of_not_asking fun g' hg' => by
    obtain rfl : g = g' := Option.some.inj (hg.symm.trans hg')
    exact h

variable {d : TileDesc} (hd : g.content.tiles[g.nextTile]? = some d)
include hd

theorem State.requestAllocation_asks (hstep : g.captureStep = some .storeWait) (hnone : s.allocWaiting = none)
    (hlt : s.mergeQueue.length < 4) :
    s.requestAllocation = { s with allocWaiting := some (allocRequestOf s g d) } := by
  simp only [State.requestAllocation, hg, hd, if_pos (And.intro hstep (And.intro hnone hlt))]

theorem State.requestAllocation_full (hfull : 4 ≤ s.mergeQueue.length) : s.requestAllocation = s := by
  have hno : ¬ (g.captureStep = some .storeWait ∧ s.allocWaiting = none ∧ s.mergeQueue.length < 4) := by
    rintro ⟨-, -, hlt⟩
    omega
  simp only [State.requestAllocation, hg, hd, if_neg hno]

end Request

theorem State.accessionOf_of_plate {s : State} {i : Nat} {pl : Plate} (h : s.plate i = some pl) :
    s.accessionOf i = pl.accession := by
  simp only [State.accessionOf, h]

/-- Settles O47: the grant with its chains, and the client that an IDLE unit takes. -/
theorem waitingWorkIsServed : Obligations.WaitingWorkIsServed := by
  unfold Obligations.WaitingWorkIsServed
  refine ⟨fun s => ⟨fun h => ?_, fun r hr => ?_, fun hu => ?_, fun g c d pl hu hg hstep hc hd hp => ?_,
    fun r c pl hu hno hr hph hc hp => ?_⟩, fun s g d pl hg hd hp => ⟨rfl, fun hstep hnone => ?_, fun h => ?_, fun h => ?_⟩,
    fun s r hu hreg hr => ?_⟩
  · exact congrArg _ (State.grantWaiting_of_none (s := s.fresh) h)
  · intro pages
    refine ⟨fun hno => congrArg _ (State.grantWaiting_refused (s := s.fresh) hr ?_), fun hroom hdir => ?_⟩
    · rw [State.canGrant_iff]
      rintro ⟨hroom, hdir⟩
      have hroom : (1 + r.n) * pages ≤ s.freePages.length := hroom
      have hdir : s.directory.length < 128 := hdir
      omega
    · have hgrant := State.grantWaiting_granted (s := s.fresh) hr ((State.canGrant_iff _ _).2 ⟨hroom, hdir⟩)
      have hexec : exec .allocationGrant s = .next _ := congrArg Host.Outcome.next hgrant
      have hraws : r.n * pages ≤ (s.freePages.drop pages).length := by
        rw [List.length_drop]
        rw [Nat.add_mul] at hroom
        omega
      refine ⟨_, takeChains pages r.n (s.freePages.drop pages), hexec, ?_, ?_, takeChains_length _ _ _,
        fun chain hmem => length_of_mem_takeChains hraws hmem, takeChains_flatten _ _ _, ?_, ?_, ?_, ?_, fun hu => ?_⟩
      · simp [State.grant, AllocRequest.wanted, chainPages, pages]
      · simp [State.grant]
      · simp [State.grant, grantedEntry, TileStats.fresh, chainPages, pages]
      · simp
      · simp
      · simp
      · rw [State.handTile_busy (by exact hu)]
        exact ⟨rfl, rfl, rfl⟩
  · exact congrArg _ (State.offerUnit_busy (s := s.fresh) hu)
  · have hoffer := State.offerUnit_tile (s := s.fresh) hg hc hd hstep hu
    have hgentle : s.gentleFor g.content.slot = decide (pl.condition = .flaking) := State.gentleFor_of_plate hp
    rw [← hgentle]
    exact ⟨_, congrArg Host.Outcome.next hoffer, rfl, rfl, rfl, rfl⟩
  · have hoffer := State.offerUnit_margin (s := s.fresh) hno hr hc hph hu
    have hgentle : s.gentleFor r.slot = decide (pl.condition = .flaking) := State.gentleFor_of_plate hp
    rw [← hgentle]
    exact ⟨_, congrArg Host.Outcome.next hoffer, rfl, rfl, rfl, rfl⟩
  · intro request
    refine ⟨fun hlt => ?_, fun hfull => ?_⟩
    · rw [State.tryAllocation, State.requestAllocation_asks hg hd hstep hnone hlt, allocRequestOf,
        State.accessionOf_of_plate hp]
      rfl
    · rw [State.tryAllocation, State.requestAllocation_full hg hd hfull, State.grantWaiting_of_none hnone]
  · rw [State.tryAllocation, State.requestAllocation_waiting h]
  · rw [State.tryAllocation, State.requestAllocation_other hg h]
  · intro pages hroom hdir
    have hgrant := State.grantWaiting_granted (s := s.fresh) hr ((State.canGrant_iff _ _).2 ⟨hroom, hdir⟩)
    refine ⟨grantedEntry r s.freePages, rfl, ?_⟩
    refine (congrArg Host.Outcome.next hgrant).trans (congrArg Host.Outcome.next ?_)
    exact (State.offerUnit_no_registration (by exact hreg)).symm

end Sys2Proof.Machine

end

section
/-! Lines delivered, STOP_READ, the pending entries that become READY and expire, and the claims for a free entry. -/

namespace Sys2Proof.Machine

/-! ### LINE_DELIVERED (08 R170, R171) -/

section Delivered

variable {s : State} {p : Port} {e : StreamEntry} {rest : List OutEntry} {r : Read} {t : TileEntry}

theorem exec_lineDelivered (hup : (s.port p).link = .up) (hsend : (s.port p).sending = .entry)
    (hout : (s.port p).outbound = .stream e :: rest) (hreply : e.reply = none) (hpos : 0 < e.count)
    (hread : (s.port p).read = some r) (ht : s.tile? r.tile = some t) :
    exec (.lineDelivered p) s = .next (s.fresh.serveFreed (s.fresh.lineDelivered p e r t) p) := by
  have hline : (s.port p).lineSending = some e := by simp [PortState.lineSending, hsend, hout, hreply, hpos]
  change execLineDelivered p s = _
  simp only [execLineDelivered, hup, hline, hread, ht]

theorem State.lineDelivered_goesOn (h : ¬ (e.count = 1 ∧ r.endLine ≤ r.position)) : s.lineDelivered p e r t =
    (s.setPort p { (s.port p).lineLeaves e false with read := some { r with delivered := r.delivered + 1 } }).emit
      (.frame p (frameOf (s.lineMessage e.tag t e.first))) := by
  have hgoes : (decide (e.count = 1) && decide (stillOwed { r with delivered := r.delivered + 1 } = 0)) = false := by
    simpa [stillOwed, Nat.sub_eq_zero_iff_le] using h
  simp only [State.lineDelivered, hgoes, Bool.false_eq_true, if_false]

theorem State.lineDelivered_ends (hone : e.count = 1) (hend : r.endLine ≤ r.position) : s.lineDelivered p e r t =
    ((s.setPort p { (s.port p).lineLeaves e true with read := some { r with delivered := r.delivered + 1 } }).emit
      (.frame p (frameOf (s.lineMessage e.tag t e.first)))).closeDelivered p { r with delivered := r.delivered + 1 } t := by
  have hends : (decide (e.count = 1) && decide (stillOwed { r with delivered := r.delivered + 1 } = 0)) = true := by
    simpa [stillOwed, Nat.sub_eq_zero_iff_le] using And.intro hone hend
  simp only [State.lineDelivered, hends, if_true]

variable {q : PortState} (hout : q.outbound = .stream e :: rest)
include hout

theorem PortState.lineLeaves_more (h : 1 < e.count) : q.lineLeaves e false =
    { q with outbound := .stream { e with first := e.first + 1, count := e.count - 1 } :: rest, sending := .idle } := by
  have hmore : e.count - 1 ≠ 0 := by omega
  simp [PortState.lineLeaves, hmore, hout]

theorem PortState.lineLeaves_emptied (h : e.count = 1) :
    q.lineLeaves e false = { q with outbound := rest, sending := .idle } := by
  simp [PortState.lineLeaves, h, hout]

theorem PortState.lineLeaves_last (h : e.count = 1) : q.lineLeaves e true =
    { q with outbound := .stream { e with first := e.first + 1, count := 0 } :: rest, sending := .idle } := by
  simp [PortState.lineLeaves, h, hout]

end Delivered

section Close

variable {s : State} {p : Port} {r : Read} {t : TileEntry}

/-- The outcome of a read whose last owed line has been delivered (08 R171). -/
def deliveredOutcome (r : Read) (t : TileEntry) : CloseOutcome := if r.endLine = t.height then .complete else .part

theorem closeRecord_delivered (r : Read) (t : TileEntry) : closeRecord r t (deliveredOutcome r t) =
    { tile := r.tile, slot := t.slot, accession := t.accession
      outcome := if r.endLine = t.height then .complete else .part
      first := r.first, delivered := r.delivered, stats := if r.endLine = t.height then t.stats else none } := by
  by_cases h : r.endLine = t.height <;> simp [closeRecord, deliveredOutcome, h]

/-- The port once the closing record is attached. -/
def State.deliveryClosed (s : State) (p : Port) (r : Read) (t : TileEntry) : State :=
  s.setPort p { (s.port p).attachClose (closeMessage r.tag (closeRecord r t (deliveredOutcome r t))) with read := none }

theorem State.heldForOther_eq_false_iff (s : State) (p : Port) (id : TileId) : s.heldForOther p id = false ↔
    ∀ x ∈ s.entries, x.port ≠ p → x.tile = id → x.state = .failed := by
  simp [State.heldForOther]

theorem State.closeDelivered_freed (h : t.consume = true ∧ t.state = .complete ∧ r.endLine = t.height ∧ r.first = 0 ∧
      s.heldForOther p t.id = false) : s.closeDelivered p r t =
    (((s.deliveryClosed p r t).modTile t.id (fun t => { t with reader := none, consume := false })).freeTile t) := by
  obtain ⟨hcons, hst, hend, hfirst, hheld⟩ := h
  have hheld' : (s.deliveryClosed p r t).heldForOther p t.id = false := by
    rw [State.heldForOther_eq_false_iff] at hheld ⊢
    simpa [State.deliveryClosed] using hheld
  simp only [State.closeDelivered, hcons, hst, if_pos hend, hfirst, hheld, and_self, if_true, State.deliveryClosed,
    deliveredOutcome]

theorem State.closeDelivered_released (h : ¬ (t.consume = true ∧ t.state = .complete ∧ r.endLine = t.height ∧
      r.first = 0 ∧ s.heldForOther p t.id = false)) :
    s.closeDelivered p r t = (s.deliveryClosed p r t).releaseReader t.id := by
  have hno : ¬ (t.consume = true ∧ t.state = .complete ∧ deliveredOutcome r t = .complete ∧ r.first = 0 ∧
      s.heldForOther p t.id = false) := by
    rintro ⟨hcons, hst, hout, hrest⟩
    refine h ⟨hcons, hst, ?_, hrest⟩
    by_contra hend
    simp [deliveredOutcome, hend] at hout
  simp only [deliveredOutcome] at hno
  simp only [State.closeDelivered, if_neg hno, State.deliveryClosed, deliveredOutcome]

end Close

/-- A tile that leaves the directory leaves nothing of a change to it. -/
theorem State.removeTile_modTile (s : State) (id : TileId) (f : TileEntry → TileEntry) (hf : ∀ x, (f x).id = x.id) :
    (s.modTile id f).removeTile id = s.removeTile id := by
  have hdir : (s.modTile id f).directory.filter (fun x => decide (x.id ≠ id)) =
      s.directory.filter (fun x => decide (x.id ≠ id)) := by
    simp only [State.modTile]
    induction s.directory with
    | nil => rfl
    | cons x l ih =>
      by_cases hx : x.id = id
      · simpa [hx, hf] using ih
      · simpa [hx] using ih
  rw [State.removeTile, hdir]
  rfl

theorem State.freeTile_modTile {t : TileEntry} (s : State) (f : TileEntry → TileEntry) (hf : ∀ x, (f x).id = x.id) :
    (s.modTile t.id f).freeTile t = s.freeTile t :=
  State.removeTile_modTile (s.returnPages t.output) t.id f hf

/-- Settles O20, by whether the run, and with it the read, ends with the line. -/
theorem deliveredLineLeavesRun : Obligations.DeliveredLineLeavesRun := by
  unfold Obligations.DeliveredLineLeavesRun
  intro s p e rest r t hup hsend hout hreply hpos hread ht line r'
  have hid := State.tile_id ht
  have hport : (s.fresh.port p) = s.port p := State.port_fresh _ _
  have hout' : (s.fresh.port p).outbound = .stream e :: rest := by rw [hport, hout]
  rw [exec_lineDelivered hup hsend hout hreply hpos hread ht]
  refine ⟨fun hmore => ?_, fun hone howed => ?_, fun hone hend hopen hrest => ?_⟩
  · rw [State.lineDelivered_goesOn (by omega), PortState.lineLeaves_more hout' hmore, hport]
    rfl
  · rw [State.lineDelivered_goesOn (by omega), PortState.lineLeaves_emptied hout' hone, hport]
    rfl
  · intro closing v freed
    have hfreed : freed ↔ (t.consume = true ∧ t.state = .complete ∧ r.endLine = t.height ∧ r.first = 0 ∧
        s.heldForOther p t.id = false) := by rw [State.heldForOther_eq_false_iff, hid]
    rw [State.lineDelivered_ends hone hend, PortState.lineLeaves_last hout' hone, hport]
    set w := (s.fresh.setPort p { s.port p with
      outbound := .stream { e with first := e.first + 1, count := 0 } :: rest, sending := .idle, read := some r' }).emit
        line with hw
    have hwport : w.port p = { s.port p with
        outbound := .stream { e with first := e.first + 1, count := 0 } :: rest, sending := .idle, read := some r' } := by
      rw [hw, State.emit_port, State.port_setPort_self]
    have hwout : (w.port p).outbound = [] ++ .stream { e with first := e.first + 1, count := 0 } :: rest := by rw [hwport]; rfl
    have hclosed : w.deliveryClosed p r' t = { v with sent := [line] } := by
      rw [State.deliveryClosed, closeRecord_delivered, PortState.attachClose_of_split hwout hopen (by simpa using hrest),
        hwport, hw]
      cases p <;> rfl
    have hheld : w.heldForOther p t.id = s.heldForOther p t.id := by simp [State.heldForOther, hw]
    rw [hfreed]
    refine ⟨fun hfree => ?_, fun hkeep => ?_⟩
    · refine congrArg (fun z : State => Host.Outcome.next (s.fresh.serveFreed z p))
        ((State.closeDelivered_freed (s := w) (r := r') (by rw [hheld]; exact hfree)).trans ?_)
      rw [hclosed, State.freeTile_modTile _ _ (by exact fun _ => rfl), State.freeTile, hid]
      cases p <;> rfl
    · refine congrArg (fun z : State => Host.Outcome.next (s.fresh.serveFreed z p))
        ((State.closeDelivered_released (s := w) (r := r') (p := p) (by rw [hheld]; exact hkeep)).trans ?_)
      rw [hclosed, hid, State.releaseReader]
      cases p <;> rfl

/-! ### STOP_READ (08 R190) -/

theorem OutEntry.openStream?_of_not_open {e : OutEntry} (h : e.isOpenStream = false) : e.openStream? = none := by
  cases e with
  | message m => rfl
  | stream x =>
    have hx : x.isOpen = false := h
    simp [OutEntry.openStream?, hx]

theorem PortState.stream?_of_none {q : PortState} (h : ∀ e ∈ q.outbound, e.isOpenStream = false) : q.stream? = none :=
  List.findSome?_eq_none_iff.2 fun e he => OutEntry.openStream?_of_not_open (h e he)

section StopStream

variable {q : PortState} {before after : List OutEntry} {x : StreamEntry}
  (hout : q.outbound = before ++ .stream x :: after) (hopen : x.isOpen = true)
  (hone : ∀ e ∈ before ++ after, e.isOpenStream = false)
include hout hopen hone

theorem PortState.stream?_of_split : q.stream? = some x := by
  have hbefore : before.findSome? OutEntry.openStream? = none :=
    List.findSome?_eq_none_iff.2 fun e he => OutEntry.openStream?_of_not_open (hone e (by simp [he]))
  simp [PortState.stream?, hout, List.findSome?_append, hbefore, OutEntry.openStream?, hopen]

theorem PortState.removeStream_of_split : q.removeStream.outbound = before ++ after := by
  have hkeep : (before ++ after).filter (fun e => !e.isOpenStream) = before ++ after :=
    List.filter_eq_self.2 fun e he => by simp [hone e he]
  rw [← hkeep, PortState.removeStream]
  simp [hout, OutEntry.isOpenStream, hopen]

/-- The stopped read's entry keeps an unsent opening reply, and leaves the list without one. -/
theorem PortState.stopStream_of_split : q.stopStream.outbound = before ++
    (if x.reply.isSome then [.stream { x with count := 0, isOpen := false }] else []) ++ after := by
  simp only [PortState.stopStream, PortState.stream?_of_split hout hopen hone]
  split
  · rw [PortState.modStream, hout, OutEntry.map_modOpen_of_split _ hopen (fun e he => hone e (by simp [he]))
      (fun e he => hone e (by simp [he]))]
    simp
  · rw [PortState.removeStream_of_split hout hopen hone, List.append_nil]

end StopStream

theorem PortState.stopStream_of_none {q : PortState} (h : ∀ e ∈ q.outbound, e.isOpenStream = false) :
    q.stopStream = q := by
  simp only [PortState.stopStream, PortState.stream?_of_none h]

@[simp] theorem PortState.stopStream_rest (q : PortState) :
    q.stopStream.link = q.link ∧ q.stopStream.inbound = q.inbound := by
  unfold PortState.stopStream
  repeat' split
  all_goals exact ⟨rfl, rfl⟩

theorem PortState.stopStream_length_le (q : PortState) : q.stopStream.outbound.length ≤ q.outbound.length := by
  unfold PortState.stopStream
  repeat' split
  · simp [PortState.modStream]
  · exact List.length_filter_le _ _
  · exact le_rfl

/-- The read has ended with its closing record at the tail of the list, and its tile still has its reader (log 12). -/
def State.readStopped (s : State) (p : Port) (m : Message) (record : CloseRecord) : State :=
  (s.setPort p { (s.port p).stopStream with read := none }).place p (.message (closeMessage m.tag record))

section Stopped

variable {s : State} {p : Port} {m : Message} {rest : List Message}

theorem State.readStopped_touches (s : State) (p : Port) (m : Message) (record : CloseRecord) :
    Touches p s (s.readStopped p m record) :=
  (Touches.setPort s p _).trans (.place _ p _)

/-- What the port has once the read has ended, for a message taken from an UP link. -/
theorem State.port_readStopped (hwaits : Waits s p m rest) (hup : (s.port p).link = .up) (record : CloseRecord) :
    (((s.taken p rest).readStopped p m record).port p).read = none ∧
    (((s.taken p rest).readStopped p m record).port p).inbound = rest ∧
    (((s.taken p rest).readStopped p m record).port p).link = .up ∧
    (((s.taken p rest).readStopped p m record).port p).outbound =
      ({ s.port p with inbound := rest } : PortState).stopStream.outbound ++ [.message (closeMessage m.tag record)] := by
  obtain ⟨hmay, -⟩ := hwaits
  have hroom := PortState.outbound_lt_of_mayTake hmay (by simp [hup])
  have hle := ({ s.port p with inbound := rest } : PortState).stopStream_length_le
  have hcan : ({ ({ s.port p with inbound := rest } : PortState).stopStream with read := none }
      : PortState).canTake = true := by
    rw [PortState.canTake_iff]
    exact ⟨by simp [hup], hle.trans_lt hroom⟩
  rw [State.readStopped, State.port_place_self, State.port_setPort_self, State.port_taken]
  refine ⟨by simp, by simp, by simp [hup], ?_⟩
  rw [PortState.offer_outbound, if_pos hcan]

theorem State.readStopped_others (s : State) (p : Port) (m : Message) (rest : List Message) (record : CloseRecord) :
    OnlyPorts (s.taken p rest) ((s.taken p rest).readStopped p m record) ∧
    OtherPortsKept p s ((s.taken p rest).readStopped p m record) := by
  obtain ⟨hports, -⟩ := (s.taken p rest).readStopped_touches p m record
  obtain ⟨-, hothers⟩ := (Touches.taken p s rest).trans ((s.taken p rest).readStopped_touches p m record)
  exact ⟨hports, hothers⟩

theorem State.stopRead_none (h : (s.port p).read = none) : s.stopRead p m = s.reply p m .noRead := by
  simp only [State.stopRead, h]

variable {r : Read} {t : TileEntry} (hread : (s.port p).read = some r) (ht : s.tile? r.tile = some t)
include hread ht

theorem State.stopRead_released (hreader : t.reader = some (p, r.kind)) : s.stopRead p m =
    s.settle (((s.readStopped p m (closeRecord r t .stopped)).releaseReader r.tile).serveClaims p) := by
  simp only [State.stopRead, hread, ht, if_pos hreader, State.stoppedRecord, State.readStopped]

theorem State.stopRead_kept (hreader : t.reader ≠ some (p, r.kind)) :
    s.stopRead p m = s.settle ((s.readStopped p m (closeRecord r t .stopped)).serveClaims p) := by
  simp only [State.stopRead, hread, ht, if_neg hreader, State.stoppedRecord, State.readStopped]

end Stopped

/-- Settles O54, by whether the port has a read, whether its stream entry stands, and whether its tile has its reader. -/
theorem stopReadEndsRead : Obligations.StopReadEndsRead := by
  unfold Obligations.StopReadEndsRead
  intro s p m rest hasks u
  have hexec : exec (.stopRead p) s = .next (u.stopRead p m) := exec_command_of_asks (r := .stopRead) hasks
  have hport : u.port p = { s.port p with inbound := rest } := State.port_taken _ _ _
  have htile : ∀ id, u.tile? id = s.tile? id := State.tile?_taken s p rest
  rw [hexec]
  refine ⟨fun hnone => ?_, fun r t before x after hup hread ht hreader hout hopen hone => ?_,
    fun r t hup hread ht hreader hno => ?_, fun r t record hup hread hwaiting ht hreader hno => ?_⟩
  · exact congrArg _ (State.stopRead_none (by rw [hport]; exact hnone))
  · have hstop := State.stopRead_released (m := m) (s := u) (by rw [hport]; exact hread) ((htile _).trans ht) hreader
    obtain ⟨hread', hin, hlink, hlist⟩ := State.port_readStopped hasks.1 hup (closeRecord r t .stopped)
    obtain ⟨hports, hothers⟩ := s.readStopped_others p m rest (closeRecord r t .stopped)
    refine ⟨_, congrArg _ hstop, hread', hin, hlink, ?_, hports, hothers⟩
    rw [hlist, PortState.stopStream_of_split (by exact hout) hopen hone]
    rfl
  · have hstop := State.stopRead_released (m := m) (s := u) (by rw [hport]; exact hread) ((htile _).trans ht) hreader
    obtain ⟨hread', hin, hlink, hlist⟩ := State.port_readStopped hasks.1 hup (closeRecord r t .stopped)
    obtain ⟨hports, hothers⟩ := s.readStopped_others p m rest (closeRecord r t .stopped)
    refine ⟨_, congrArg _ hstop, hread', hin, hlink, ?_, hports, hothers⟩
    rw [hlist, PortState.stopStream_of_none (by exact hno)]
    rfl
  · have hstop := State.stopRead_kept (m := m) (s := u) (by rw [hport]; exact hread) ((htile _).trans ht)
      (by simp [hreader])
    obtain ⟨hread', hin, hlink, hlist⟩ := State.port_readStopped hasks.1 hup (closeRecord r t .stopped)
    obtain ⟨hports, hothers⟩ := s.readStopped_others p m rest (closeRecord r t .stopped)
    refine ⟨_, congrArg _ hstop, hread', hin, hlink, ?_, hports, hothers⟩
    rw [hlist, PortState.stopStream_of_none (by exact hno)]
    rfl

/-! ### Pending entries that become READY or expire (08 R180, R181) -/

theorem PortState.covers_iff (q : PortState) (i : Nat) : q.covers i = true ↔ q.windowBase ≤ i ∧ i ≤ q.windowLimit := by
  simp [PortState.covers]

section Ready

variable {s : State} {id : TileId}

theorem State.entryTurnsReady_nothing
    (h : s.tile? id = none ∨ (∃ t, s.tile? id = some t ∧ (t.state ≠ .complete ∨ t.reader ≠ none)) ∨
      ∀ e ∈ s.entries, e.tile = id → e.state ≠ .waiting) : s.entryTurnsReady id = s := by
  unfold State.entryTurnsReady
  split
  next t e ht he =>
    rcases h with h | ⟨t', ht', h⟩ | h
    · exact absurd (ht.symm.trans h) (by simp)
    · obtain rfl : t = t' := Option.some.inj (ht.symm.trans ht')
      rw [if_neg]
      rintro ⟨hst, hreader⟩
      exact h.elim (· hst) (· hreader)
    · have hmem := List.mem_of_find?_eq_some he
      have hwait := List.find?_some he
      simp only [Bool.and_eq_true, decide_eq_true_eq] at hwait
      exact absurd hwait.2 (h e hmem hwait.1)
  next => rfl

variable {before after : List PendingEntry} {e : PendingEntry} (hentries : s.entries = before ++ e :: after)
  (htile : e.tile = id) (hone : ∀ x ∈ before ++ after, x.tile ≠ id)
include hentries htile hone

theorem State.waitingEntry_of_split (hst : e.state = .waiting) : s.waitingEntry id = some e := by
  have hbefore : before.find? (fun e => decide (e.tile = id) && decide (e.state = .waiting)) = none :=
    List.find?_eq_none.2 fun x hx => by simp [hone x (by simp [hx])]
  simp [State.waitingEntry, hentries, List.find?_append, hbefore, htile, hst]

theorem State.turnEntry_of_split (hst : e.state = .waiting) (st : EntryState) : s.turnEntry id st = { s with
    entries := before ++ { e with state := st, timer := some s.settings.discardTime } :: after } := by
  have hkeep : ∀ l : List PendingEntry, (∀ x ∈ l, x.tile ≠ id) → l.map (fun x =>
      if x.tile = id ∧ x.state = .waiting then { x with state := st, timer := some s.settings.discardTime } else x) = l := by
    intro l hl
    refine (List.map_congr_left fun x hx => ?_).trans (List.map_id l)
    rw [if_neg (fun h => hl x hx h.1)]
    rfl
  rw [State.turnEntry, hentries, List.map_append, List.map_cons, hkeep before fun x hx => hone x (by simp [hx]),
    hkeep after fun x hx => hone x (by simp [hx]), if_pos ⟨htile, hst⟩]

theorem State.entryTurnsReady_of_split {t : TileEntry} (ht : s.tile? id = some t) (hcomplete : t.state = .complete)
    (hreader : t.reader = none) (hst : e.state = .waiting) : s.entryTurnsReady id = State.sendTileReady { s with
      entries := before ++ { e with state := .ready, timer := some s.settings.discardTime } :: after } id e.port := by
  have hwaiting := State.waitingEntry_of_split hentries htile hone hst
  simp only [State.entryTurnsReady, ht, hwaiting, if_pos (And.intro hcomplete hreader),
    State.turnEntry_of_split hentries htile hone hst]

theorem State.expireEntry_of_split {ms : Nat} (htimer : e.timer = some ms) :
    s.expireEntry id = { s with entries := before ++ after } := by
  have hkeep : (before ++ after).filter (fun e => !(decide (e.tile = id) && e.timer.isSome)) = before ++ after :=
    List.filter_eq_self.2 fun x hx => by simp [hone x hx]
  rw [State.expireEntry, hentries, ← hkeep]
  simp [htile, htimer]

end Ready

section TileReady

variable {s : State} {id : TileId} {t : TileEntry} {p : Port} (ht : s.tile? id = some t)
include ht

theorem State.sendTileReady_covered (h : (s.port p).covers t.slot = true) : s.sendTileReady id p =
    s.place p (notice .tileReady (.tileReady id t.slot t.accession t.width t.height (s.entryFlagFor p t).1
      (s.entryFlagFor p t).2)) := by
  simp only [State.sendTileReady, ht, if_pos h]

theorem State.sendTileReady_uncovered (h : ¬ (s.port p).covers t.slot = true) : s.sendTileReady id p = s := by
  simp only [State.sendTileReady, ht, if_neg h]

end TileReady

/-- Settles O55: the WAITING entry, the notice to its port, and the entry whose timer has run out. -/
theorem entryBecomesReadyAndExpires : Obligations.EntryBecomesReadyAndExpires := by
  unfold Obligations.EntryBecomesReadyAndExpires
  intro s id
  refine ⟨fun t before e after ht hcomplete hreader hentries htile hst hone => ?_, fun h => ?_,
    fun before e after ms hentries htile htimer hone => ?_⟩
  · intro turned
    have hexec : exec (.entryReady id) s = .next (turned.sendTileReady id e.port) := congrArg Host.Outcome.next
      (State.entryTurnsReady_of_split (s := s.fresh) hentries htile hone ht hcomplete hreader hst)
    have ht' : turned.tile? id = some t := ht
    have hport : turned.port e.port = s.port e.port := State.port_congr rfl _
    have hflag : turned.entryFlagFor e.port t = (.heldForYou, s.settings.discardTime) := by
      have hbefore : before.find? (fun x => decide (x.tile = id) && decide (x.state = .ready)) = none :=
        List.find?_eq_none.2 fun x hx => by simp [hone x (by simp [hx])]
      simp [State.entryFlagFor, turned, List.find?_append, hbefore, htile, State.tile_id ht]
    rw [hexec]
    refine ⟨fun hin => ?_, fun hout => ?_⟩
    · rw [State.sendTileReady_covered ht' (by rw [hport, PortState.covers_iff]; exact hin), hflag]
      rfl
    · rw [State.sendTileReady_uncovered ht' (by rw [hport, PortState.covers_iff]; omega)]
  · exact congrArg Host.Outcome.next (State.entryTurnsReady_nothing (s := s.fresh) h)
  · exact congrArg Host.Outcome.next (State.expireEntry_of_split (s := s.fresh) hentries htile hone htimer)

end Sys2Proof.Machine

end

section
/-! The claims for a free entry (09 R204), served as commands of their own and inside an event. -/

namespace Sys2Proof.Machine

/-! ### What waits for a free entry -/

section Waiting

variable {s : State} {p : Port}

theorem State.plates_toList_getElem? (s : State) (i : Nat) :
    s.plates.toList[i]? = if i < 32 then some (s.plate i) else none := by
  rw [← State.plates_getElem?, Vector.getElem?_toList]

theorem State.pendingSlot_eq_some {i : Nat} {pl : Plate} {n : PendingNotice} (hp : s.plate i = some pl)
    (hport : pl.handlerPort = p) (hn : pl.noticePending = some n)
    (hfirst : ∀ j x, j < i → s.plate j = some x → x.handlerPort = p → x.noticePending = none) :
    s.pendingSlot p = some i := by
  have hi := State.lt_of_plate hp
  refine findIdx?_first (d := some pl) ?_ (by simp [hport, hn]) fun j r hj hr => ?_
  · rw [State.plates_toList_getElem?, if_pos hi, hp]
  · have hlt : j < 32 := by omega
    have hr : s.plate j = r := by
      rw [State.plates_toList_getElem?, if_pos hlt] at hr
      exact Option.some.inj hr
    cases r with
    | none => rfl
    | some x => by_cases hx : x.handlerPort = p <;> simp [hx, hfirst j x hj hr]

theorem State.pendingSlot_eq_none (h : ∀ i pl, s.plate i = some pl → pl.handlerPort = p → pl.noticePending = none) :
    s.pendingSlot p = none := by
  refine List.findIdx?_eq_none_iff.2 fun r hr => ?_
  obtain ⟨i, -, hi⟩ := (s.mem_plates_toList r).1 hr
  cases r with
  | none => rfl
  | some x => by_cases hx : x.handlerPort = p <;> simp [hx, h i x hi]

theorem State.plate_of_pendingSlot {i : Nat} (h : s.pendingSlot p = some i) :
    ∃ pl n, s.plate i = some pl ∧ pl.handlerPort = p ∧ pl.noticePending = some n := by
  obtain ⟨hi, htest, -⟩ := List.findIdx?_eq_some_iff_getElem.1 h
  have hlt : i < 32 := by simpa using hi
  have hplate : s.plates.toList[i] = s.plate i := by
    have hget := s.plates_toList_getElem? i
    rw [if_pos hlt, List.getElem?_eq_getElem hi] at hget
    exact Option.some.inj hget
  rw [hplate] at htest
  cases hp : s.plate i with
  | none => simp [hp] at htest
  | some pl =>
    simp only [hp, Bool.and_eq_true, decide_eq_true_eq] at htest
    obtain ⟨hport, hsome⟩ := htest
    obtain ⟨n, hn⟩ := Option.isSome_iff_exists.1 hsome
    exact ⟨pl, n, rfl, hport, hn⟩

theorem State.heldProgram_eq_some_iff (g : Program) : s.heldProgram p = some g ↔
    ∃ older younger, s.programs = older ++ g :: younger ∧ g.port = p ∧ g.state = .finished ∧
      ∀ x ∈ older, ¬ (x.port = p ∧ x.state = .finished) := by
  rw [State.heldProgram, List.find?_eq_some_iff_append]
  simp only [Bool.and_eq_true, decide_eq_true_eq, Bool.not_eq_true', ← Bool.not_eq_true]
  exact ⟨fun ⟨⟨hport, hst⟩, older, younger, hsplit, hno⟩ => ⟨older, younger, hsplit, hport, hst, hno⟩,
    fun ⟨older, younger, hsplit, hport, hst, hno⟩ => ⟨⟨hport, hst⟩, older, younger, hsplit, hno⟩⟩

theorem State.heldProgram_eq_none_iff :
    s.heldProgram p = none ↔ ∀ x ∈ s.programs, ¬ (x.port = p ∧ x.state = .finished) := by
  simp [State.heldProgram, List.find?_eq_none]

theorem State.heldProgram_eq_none (h : ∀ g ∈ s.programs, g.port = p → g.state ≠ .finished) : s.heldProgram p = none :=
  State.heldProgram_eq_none_iff.2 fun x hx ⟨hport, hst⟩ => h x hx hport hst

/-- With distinct tags a program is the one of its tag. -/
theorem State.program?_of_nodup (hnodup : (s.programs.map (·.tag)).Nodup) {g : Program} (hg : g ∈ s.programs) :
    s.program? g.tag = some g := by
  unfold State.program?
  revert hnodup hg
  induction s.programs with
  | nil => simp
  | cons x l ih =>
    intro hnodup hg
    obtain ⟨hx, hl⟩ := List.nodup_cons.1 hnodup
    rcases List.mem_cons.1 hg with rfl | hg
    · simp
    · have hne : x.tag ≠ g.tag := fun htag => hx (List.mem_map.2 ⟨g, hg, htag.symm⟩)
      simpa [List.find?_cons, hne] using ih hl hg

end Waiting

/-! ### The first claim (09 R204) -/

section First

variable {s : State} {p : Port}

theorem State.nextClaim_notice {i : Nat} (h : s.pendingSlot p = some i) : s.nextClaim p = some (.plateNotice i) := by
  simp only [State.nextClaim, h]

variable (hnotice : s.pendingSlot p = none)
include hnotice

theorem State.nextClaim_done {g : Program} (h : s.heldProgram p = some g) :
    s.nextClaim p = some (.programDone g.tag) := by
  simp only [State.nextClaim, hnotice, h]

variable (hdone : s.heldProgram p = none)
include hdone

theorem State.nextClaim_close {r : Read} {record : CloseRecord} (hread : (s.port p).read = some r)
    (h : r.waitingClose = some record) : s.nextClaim p = some .failedClose := by
  simp [State.nextClaim, hnotice, hdone, hread, h]

variable (hclose : ∀ r, (s.port p).read = some r → r.waitingClose = none)
include hclose

/-- With nothing before it, a burst claims an entry where it is due and no stream entry stands. -/
theorem State.nextClaim_rest : s.nextClaim p =
    if (s.dueBurst p).isSome && !(s.port p).streamStands then some .burst else none := by
  have hno : ((s.port p).read.bind (·.waitingClose)).isSome = false := by
    rcases hread : (s.port p).read with _ | r
    · rfl
    · simp [hclose r hread]
  simp only [State.nextClaim, hnotice, hdone, hno, Bool.false_eq_true, if_false]

end First

/-- What each claim stands for. -/
theorem State.nextClaim_eq_some {s : State} {p : Port} {c : Claim} (h : s.nextClaim p = some c) :
    (∃ i pl n, c = .plateNotice i ∧ s.plate i = some pl ∧ pl.handlerPort = p ∧ pl.noticePending = some n) ∨
    (∃ g, c = .programDone g.tag ∧ s.heldProgram p = some g) ∨
    (∃ r record, c = .failedClose ∧ (s.port p).read = some r ∧ r.waitingClose = some record) ∨
    (∃ r t, c = .burst ∧ s.dueBurst p = some (r, t) ∧ (s.port p).streamStands = false) := by
  rcases hnotice : s.pendingSlot p with _ | i
  · rcases hdone : s.heldProgram p with _ | g
    · by_cases hclose : ∀ r, (s.port p).read = some r → r.waitingClose = none
      · rw [State.nextClaim_rest hnotice hdone hclose] at h
        split at h
        next hburst =>
          simp only [Bool.and_eq_true, Bool.not_eq_true'] at hburst
          obtain ⟨hsome, hstands⟩ := hburst
          obtain ⟨⟨r, t⟩, hdue⟩ := Option.isSome_iff_exists.1 hsome
          exact .inr (.inr (.inr ⟨r, t, (Option.some.inj h).symm, hdue, hstands⟩))
        next => cases h
      · push Not at hclose
        obtain ⟨r, hread, hwaiting⟩ := hclose
        obtain ⟨record, hrecord⟩ := Option.ne_none_iff_exists'.1 hwaiting
        rw [State.nextClaim_close hnotice hdone hread hrecord] at h
        exact .inr (.inr (.inl ⟨r, record, (Option.some.inj h).symm, hread, hrecord⟩))
    · rw [State.nextClaim_done hnotice hdone] at h
      exact .inr (.inl ⟨g, (Option.some.inj h).symm, rfl⟩)
  · rw [State.nextClaim_notice hnotice] at h
    obtain ⟨pl, n, hp, hport, hn⟩ := State.plate_of_pendingSlot hnotice
    exact .inl ⟨i, pl, n, (Option.some.inj h).symm, hp, hport, hn⟩

/-! ### A claim served -/

section Serve

variable {s : State} {p : Port}

theorem State.serveClaim_notice {i : Nat} {pl : Plate} {n : PendingNotice} (hp : s.plate i = some pl)
    (hport : pl.handlerPort = p) (hn : pl.noticePending = some n) : s.serveClaim p (.plateNotice i) =
      (s.setPlate i (some { pl with noticePending := none })).place p (plateNotice i pl n) := by
  simp only [State.serveClaim, State.issuePending, hp, hn, State.modPlate_of_plate hp, hport]

theorem State.serveClaim_close {r : Read} {record : CloseRecord} (hread : (s.port p).read = some r)
    (h : r.waitingClose = some record) : s.serveClaim p .failedClose =
      s.setPort p (PortState.push { s.port p with read := none } (.message (closeMessage r.tag record))) := by
  simp only [State.serveClaim, State.placeWaitingClose, hread, h]

variable (hcan : (s.port p).canTake = true)
include hcan

theorem State.serveClaim_close_place {r : Read} {record : CloseRecord} (hread : (s.port p).read = some r)
    (h : r.waitingClose = some record) : s.serveClaim p .failedClose =
      (s.setPort p { s.port p with read := none }).place p (.message (closeMessage r.tag record)) := by
  have hcan' : ((s.setPort p { s.port p with read := none }).port p).canTake = true := by
    rw [State.port_setPort_self]
    exact hcan
  rw [State.serveClaim_close hread h, State.place_of_canTake hcan', State.port_setPort_self, State.setPort_setPort]

theorem State.serveClaim_done {g : Program} (hg : s.program? g.tag = some g) (hport : g.port = p) :
    s.serveClaim p (.programDone g.tag) = (s.place p (programDone g)).dropProgram g.tag := by
  subst hport
  obtain ⟨hup, hroom⟩ := (s.port g.port).canTake_iff.1 hcan
  exact State.deliverDone_placed hg hup hroom

theorem State.outbound_place (e : OutEntry) : ((s.place p e).port p).outbound = (s.port p).outbound ++ [e] := by
  rw [State.port_place_self, PortState.offer_outbound, if_pos hcan]

/-- Each claim served takes one entry of the list, and leaves distinct tags distinct. -/
theorem State.serveClaim_takes {c : Claim} (hnodup : (s.programs.map (·.tag)).Nodup) (hc : s.nextClaim p = some c) :
    ((s.serveClaim p c).port p).outbound.length = (s.port p).outbound.length + 1 ∧
    ((s.serveClaim p c).programs.map (·.tag)).Nodup := by
  rcases State.nextClaim_eq_some hc with ⟨i, pl, n, rfl, hp, hport, hn⟩ | ⟨g, rfl, hg⟩ | ⟨r, record, rfl, hread, hrecord⟩ |
    ⟨r, t, rfl, hdue, hstands⟩
  · have hplates : ∀ x, (s.setPlate i x).port p = s.port p := fun x => State.port_congr rfl p
    rw [State.serveClaim_notice hp hport hn]
    refine ⟨?_, by simpa using hnodup⟩
    rw [State.outbound_place (by rw [hplates]; exact hcan), hplates, List.length_append, List.length_singleton]
  · obtain ⟨older, younger, hsplit, hport, -, -⟩ := (State.heldProgram_eq_some_iff g).1 hg
    have hmem : g ∈ s.programs := by simp [hsplit]
    have hdrop : ∀ u : State, (u.dropProgram g.tag).port p = u.port p := fun u => State.port_congr rfl p
    rw [State.serveClaim_done hcan (State.program?_of_nodup hnodup hmem) hport]
    refine ⟨?_, ?_⟩
    · rw [hdrop, State.outbound_place hcan, List.length_append, List.length_singleton]
    · rw [State.dropProgram_eq]
      simpa using hnodup.sublist (List.filter_sublist.map _)
  · rw [State.serveClaim_close hread hrecord]
    exact ⟨by simp, by simpa using hnodup⟩
  · rw [State.serveClaim, State.judgeBurst_takesEntry hdue hstands hcan]
    exact ⟨by simp, by simpa using hnodup⟩

end Serve

/-! ### Claims served until none can be (09 R204) -/

section UpTo

variable {s : State} {p : Port}

theorem State.serveUpTo_blocked (h : (s.port p).canTake = false) (k : Nat) : s.serveUpTo p k = s := by
  cases k with
  | zero => rfl
  | succ k => simp [State.serveUpTo, h]

theorem State.serveUpTo_no_claim (h : s.nextClaim p = none) (k : Nat) : s.serveUpTo p k = s := by
  cases k with
  | zero => rfl
  | succ k => simp [State.serveUpTo, h]

theorem State.serveUpTo_claim {c : Claim} (hcan : (s.port p).canTake = true) (h : s.nextClaim p = some c) (k : Nat) :
    s.serveUpTo p (k + 1) = (s.serveClaim p c).serveUpTo p k := by
  simp only [State.serveUpTo, if_pos hcan, h]

end UpTo

/-- A bound of at least the free entries of the list is never reached. -/
theorem State.serveUpTo_eq {s : State} {p : Port} {j k : Nat} (hnodup : (s.programs.map (·.tag)).Nodup)
    (hj : 64 ≤ (s.port p).outbound.length + j) (hk : 64 ≤ (s.port p).outbound.length + k) :
    s.serveUpTo p j = s.serveUpTo p k := by
  induction j generalizing s k with
  | zero =>
    have hfull := (PortState.canTake_false_iff (s.port p)).2 (.inr hj)
    rw [State.serveUpTo_blocked hfull, State.serveUpTo_blocked hfull]
  | succ j ih =>
    rcases hcan : (s.port p).canTake with _ | _
    · rw [State.serveUpTo_blocked hcan, State.serveUpTo_blocked hcan]
    · rcases hc : s.nextClaim p with _ | c
      · rw [State.serveUpTo_no_claim hc, State.serveUpTo_no_claim hc]
      · obtain ⟨-, hroom⟩ := (PortState.canTake_iff _).1 hcan
        obtain ⟨k, rfl⟩ : ∃ i, k = i + 1 := ⟨k - 1, by omega⟩
        obtain ⟨htakes, hnodup'⟩ := State.serveClaim_takes hcan hnodup hc
        rw [State.serveUpTo_claim hcan hc, State.serveUpTo_claim hcan hc]
        exact ih hnodup' (by omega) (by omega)

theorem State.serveClaims_claim {s : State} {p : Port} {c : Claim} (hnodup : (s.programs.map (·.tag)).Nodup)
    (hcan : (s.port p).canTake = true) (hc : s.nextClaim p = some c) :
    s.serveClaims p = (s.serveClaim p c).serveClaims p := by
  obtain ⟨htakes, hnodup'⟩ := State.serveClaim_takes hcan hnodup hc
  rw [State.serveClaims, State.serveUpTo_claim hcan hc]
  exact State.serveUpTo_eq hnodup' (by omega) (by omega)

/-! ### A claim as a command of its own -/

section Alone

variable {s : State} {p : Port} {sel : Claim → Bool}

theorem State.serveAlone_blocked (h : (s.port p).canTake = false) : s.serveAlone p sel = s := by
  simp [State.serveAlone, h]

variable {c : Claim} (hc : s.nextClaim p = some c)
include hc

theorem State.serveAlone_other (h : sel c = false) : s.serveAlone p sel = s := by
  simp [State.serveAlone, hc, h]

theorem State.serveAlone_served (hcan : (s.port p).canTake = true) (h : sel c = true) :
    s.serveAlone p sel = s.settle (s.serveClaim p c) := by
  simp only [State.serveAlone, if_pos hcan, hc, if_pos h]

end Alone

/-! ### The message that begins next (log 13) -/

section Begin

variable {q : PortState}

theorem PortState.beginSending_busy (h : q.link = .down ∨ q.sending ≠ .idle) : q.beginSending = q := by
  rcases h with h | h <;> simp [PortState.beginSending, h]

variable (hup : q.link = .up) (hidle : q.sending = .idle)
include hup hidle

theorem PortState.beginSending_retry (h : q.retry ≠ []) : q.beginSending = { q with sending := .retryLater } := by
  simp [PortState.beginSending, hup, hidle, h]

variable (hretry : q.retry = [])
include hretry

theorem PortState.beginSending_entry (h : q.outbound ≠ []) : q.beginSending = { q with sending := .entry } := by
  simp [PortState.beginSending, hup, hidle, hretry, h]

theorem PortState.beginSending_nothing (h : q.outbound = []) : q.beginSending = q := by
  simp [PortState.beginSending, hup, hidle, hretry, h]

end Begin

/-- Settles O56: the claims in their order, each taking one entry, so that the bound of 64 is never reached. -/
theorem freeEntryClaimsInOrder : Obligations.FreeEntryClaimsInOrder := by
  unfold Obligations.FreeEntryClaimsInOrder
  refine ⟨fun s p => ⟨fun hno => ?_, fun hup hroom => ?_⟩,
    fun s p hnodup => ⟨fun hno => ?_, fun hup hroom => ?_⟩, fun s0 s p => ?_,
    fun s p => ⟨State.heldProgram_eq_some_iff, State.heldProgram_eq_none_iff⟩, fun g => rfl⟩
  · have hblocked : (s.fresh.port p).canTake = false := by rw [State.port_fresh]; exact (PortState.canTake_false_iff _).2 hno
    exact ⟨congrArg _ (State.serveAlone_blocked hblocked), congrArg _ (State.serveAlone_blocked hblocked),
      congrArg _ (State.serveAlone_blocked hblocked), congrArg _ (State.serveAlone_blocked hblocked)⟩
  · intro noNotice noDone
    have hcan : (s.fresh.port p).canTake = true := by rw [State.port_fresh]; exact (PortState.canTake_iff _).2 ⟨hup, hroom⟩
    have hnotice : noNotice → s.fresh.pendingSlot p = none := fun h => State.pendingSlot_eq_none (s := s.fresh) h
    have hdone : noDone → s.fresh.heldProgram p = none := fun h => State.heldProgram_eq_none (s := s.fresh) h
    refine ⟨fun i pl n hp hport hn hfirst => ?_, fun h g hg hprogram => ?_, fun h1 h2 r record hread hrecord => ?_,
      fun h1 h2 r t hread hclose ht hdue hno => ?_⟩
    · have hc := State.nextClaim_notice (State.pendingSlot_eq_some (s := s.fresh) hp hport hn hfirst)
      refine ⟨congrArg _ ((State.serveAlone_served hc hcan rfl).trans (congrArg _ ?_)),
        congrArg _ (State.serveAlone_other hc rfl), congrArg _ (State.serveAlone_other hc rfl),
        congrArg _ (State.serveAlone_other hc rfl)⟩
      exact State.serveClaim_notice (s := s.fresh) hp hport hn
    · have hc := State.nextClaim_done (hnotice h) (g := g) hg
      obtain ⟨-, -, -, hport, -, -⟩ := (State.heldProgram_eq_some_iff g).1 hg
      refine ⟨congrArg _ ((State.serveAlone_served hc hcan rfl).trans (congrArg _ ?_)),
        congrArg _ (State.serveAlone_other hc rfl), congrArg _ (State.serveAlone_other hc rfl)⟩
      exact State.serveClaim_done hcan hprogram hport
    · have hread' : (s.fresh.port p).read = some r := by rw [State.port_fresh]; exact hread
      have hc := State.nextClaim_close (hnotice h1) (hdone h2) hread' hrecord
      have hserved := (State.serveAlone_served hc hcan (sel := Claim.isFailedClose) rfl).trans
        (congrArg _ (State.serveClaim_close hread' hrecord))
      obtain ⟨hports, hothers⟩ := Touches.setPort s.fresh p
        (PortState.push { s.fresh.port p with read := none } (.message (closeMessage r.tag record)))
      refine ⟨_, congrArg _ hserved, ?_, ?_, hports, fun q hq => (hothers q hq).trans (State.port_fresh _ _),
        congrArg _ (State.serveAlone_other hc rfl)⟩
      · rw [State.port_setPort_self, (PortState.push_rest _ _).2.2.1]
      · rw [State.port_setPort_self, (PortState.push_rest _ _).1, State.port_fresh]
        rfl
    · have hread' : (s.fresh.port p).read = some r := by rw [State.port_fresh]; exact hread
      have hstands : (s.fresh.port p).streamStands = false := by
        rw [State.port_fresh]
        exact (PortState.streamStands_eq_false_iff _).2 hno
      have hburst : s.fresh.dueBurst p = some (r, t) := by rw [State.dueBurst_eq hread' (by exact ht), if_pos hdue]
      have hc : s.fresh.nextClaim p = some .burst := by
        rw [State.nextClaim_rest (hnotice h1) (hdone h2), hburst, hstands]
        · rfl
        · intro r' hr'
          obtain rfl : r = r' := Option.some.inj (hread'.symm.trans hr')
          exact hclose
      exact congrArg _ (State.serveAlone_served hc hcan rfl)
  · exact State.serveUpTo_blocked ((PortState.canTake_false_iff _).2 hno) _
  · intro noNotice noDone noClose streamStands
    have hcan : (s.port p).canTake = true := (PortState.canTake_iff _).2 ⟨hup, hroom⟩
    have hnotice : noNotice → s.pendingSlot p = none := State.pendingSlot_eq_none
    have hdone : noDone → s.heldProgram p = none := State.heldProgram_eq_none
    have hstands : ¬ streamStands ↔ (s.port p).streamStands = false := by
      rw [PortState.streamStands_eq_false_iff]
      simp [streamStands]
    refine ⟨fun i pl n hp hport hn hfirst => ?_, fun h g hg => ?_, fun h1 h2 r record hread hrecord => ?_,
      fun h1 h2 h3 hno r t hread ht hdue => ?_, fun h1 h2 h3 h => ?_⟩
    · rw [State.serveClaims_claim hnodup hcan (State.nextClaim_notice (State.pendingSlot_eq_some hp hport hn hfirst)),
        State.serveClaim_notice hp hport hn]
    · obtain ⟨older, younger, hsplit, hport, -, -⟩ := (State.heldProgram_eq_some_iff g).1 hg
      have hprogram := State.program?_of_nodup hnodup (g := g) (by simp [hsplit])
      rw [State.serveClaims_claim hnodup hcan (State.nextClaim_done (hnotice h) hg),
        State.serveClaim_done hcan hprogram hport]
    · rw [State.serveClaims_claim hnodup hcan (State.nextClaim_close (hnotice h1) (hdone h2) hread hrecord),
        State.serveClaim_close_place hcan hread hrecord]
      rfl
    · have hc : s.nextClaim p = some .burst := by
        rw [State.nextClaim_rest (hnotice h1) (hdone h2) h3, State.dueBurst_eq hread ht, if_pos hdue, hstands.1 hno]
        rfl
      exact State.serveClaims_claim hnodup hcan hc
    · refine State.serveUpTo_no_claim ?_ _
      rw [State.nextClaim_rest (hnotice h1) (hdone h2) h3]
      rcases h with h | h
      · have htrue : (s.port p).streamStands = true := by
          rw [← Bool.not_eq_false]
          exact fun hfalse => hstands.2 hfalse h
        simp [htrue]
      · have hnone : s.dueBurst p = none := by
          rcases hread : (s.port p).read with _ | r
          · simp only [State.dueBurst, hread]
          · rcases ht : s.tile? r.tile with _ | t
            · simp only [State.dueBurst, hread, ht]
            · rw [State.dueBurst_eq hread ht, if_neg (by simp [h r t hread ht])]
        simp [hnone]
  · intro u
    have hfreed : s0.serveFreed s p = s0.settle (u.setPort p (u.port p).beginSending) := rfl
    rw [hfreed]
    refine ⟨fun hup hidle => ⟨fun h => ?_, fun hretry h => ?_, fun hretry h => ?_⟩, fun h => ?_⟩
    · rw [PortState.beginSending_retry hup hidle h]
    · rw [PortState.beginSending_entry hup hidle hretry h]
    · rw [PortState.beginSending_nothing hup hidle hretry h, State.setPort_port]
    · rw [PortState.beginSending_busy h, State.setPort_port]

end Sys2Proof.Machine

end

section
/-! PORT_RESET (09 R208): what it clears of the port and of the tables, and what stays. -/

namespace Sys2Proof.Machine

/-! ### The keep of the port (01 R27) -/

theorem State.dropKeep_occupied {s : State} {i : Nat} {pl : Plate} (ho : s.occupant = some i) (hp : s.plate i = some pl)
    (p : Port) : s.dropKeep p = s.setPlate i (some { pl with keeps := pl.keeps.put p false }) := by
  simp only [State.dropKeep, ho, State.modPlate_of_plate hp]

theorem State.plate_dropKeep_other (s : State) (p : Port) {i : Nat} (h : s.occupant ≠ some i) :
    (s.dropKeep p).plate i = s.plate i := by
  rcases ho : s.occupant with _ | j
  · simp only [State.dropKeep, ho]
  · have hne : j ≠ i := fun hji => h (by rw [ho, hji])
    rcases hp : s.plate j with _ | pl
    · simp only [State.dropKeep, ho, State.modPlate, hp]
    · rw [State.dropKeep_occupied ho hp, State.plate_setPlate, if_neg (fun h => hne h.1)]

/-- Dropping a keep changes the plate table alone. -/
theorem State.dropKeep_eq (s : State) (p : Port) : s.dropKeep p = { s with
    plates := (s.dropKeep p).plates, occupant := (s.dropKeep p).occupant, indicator := (s.dropKeep p).indicator } := by
  unfold State.dropKeep State.modPlate
  repeat' split
  all_goals rfl

/-! ### The silent end of the read (08 R191) -/

theorem State.sendTileReady_cases (s : State) (id : TileId) (p : Port) :
    s.sendTileReady id p = s ∨ ∃ m, s.sendTileReady id p = s.place p (.message m) := by
  unfold State.sendTileReady
  split
  · exact .inl rfl
  · split
    · exact .inr ⟨_, rfl⟩
    · exact .inl rfl

/-- A WAITING entry that turns READY offers its port at most one message. -/
theorem State.entryTurnsReady_port (s : State) (id : TileId) (p : Port) :
    (s.entryTurnsReady id).port p = s.port p ∨
    ∃ m, (s.entryTurnsReady id).port p = (s.port p).offer (.message m) := by
  have hturn : (s.turnEntry id .ready).port p = s.port p := State.port_congr rfl p
  unfold State.entryTurnsReady
  split
  next t e _ _ =>
    split
    · rcases (s.turnEntry id .ready).sendTileReady_cases id e.port with h | ⟨m, h⟩
      · exact .inl (by rw [h, hturn])
      · rw [h]
        by_cases hp : p = e.port
        · subst hp
          exact .inr ⟨m, by rw [State.port_place_self, hturn]⟩
        · exact .inl (by rw [State.port_place_of_ne _ _ hp, hturn])
    · exact .inl rfl
  next => exact .inl rfl

/-- What the silent end of a read leaves of its port: no read, no stream entry, and at most one message more. -/
structure ReadGone (q q' : PortState) : Prop where
  read : q'.read = none
  link : q'.link = q.link
  upCount : q'.upCount = q.upCount
  inbound : q'.inbound = q.inbound
  retry : q'.retry = q.retry
  outbound : ∃ more : List OutEntry, more.length ≤ 1 ∧ (∀ e ∈ more, e.isOpenStream = false) ∧
    q'.outbound = q.outbound.filter (fun e => !e.isOpenStream) ++ more

theorem ReadGone.removed (q : PortState) : ReadGone q { q.removeStream with read := none } :=
  ⟨rfl, rfl, rfl, rfl, rfl, [], by simp, by simp, by simp [PortState.removeStream]⟩

theorem ReadGone.offer (q : PortState) (m : OutMessage) :
    ReadGone q (({ q.removeStream with read := none } : PortState).offer (.message m)) := by
  refine ⟨by simp, by simp [PortState.removeStream], by simp [PortState.removeStream], by simp [PortState.removeStream],
    by simp [PortState.removeStream], ?_⟩
  rw [PortState.offer_outbound]
  split
  · exact ⟨[.message m], by simp, by simp [OutEntry.isOpenStream], rfl⟩
  · exact ⟨[], by simp, by simp, by simp [PortState.removeStream]⟩

section Silent

variable {s : State} {p : Port} {r : Read} (hread : (s.port p).read = some r)
include hread

theorem State.port_endReadSilently : ReadGone (s.port p) ((s.endReadSilently p).port p) := by
  by_cases hreader : ∃ t, s.tile? r.tile = some t ∧ t.reader = some (p, r.kind)
  · obtain ⟨t, ht, hreader⟩ := hreader
    rw [State.endReadSilently_released hread ht hreader, State.releaseReader]
    have hport : ∀ f, ((s.setPort p { (s.port p).removeStream with read := none }).modTile r.tile f).port p =
        { (s.port p).removeStream with read := none } := fun f => by
      rw [State.modTile_port, State.port_setPort_self]
    rcases State.entryTurnsReady_port ((s.setPort p { (s.port p).removeStream with read := none }).modTile r.tile
      (fun t => { t with reader := none, consume := false })) r.tile p with h | ⟨m, h⟩
    · rw [h, hport]
      exact .removed _
    · rw [h, hport]
      exact .offer _ m
  · rw [State.endReadSilently_kept hread (fun t ht h => hreader ⟨t, ht, h⟩), State.port_setPort_self]
    exact .removed _

theorem State.directory_endReadSilently_released {t : TileEntry} (ht : s.tile? r.tile = some t)
    (hreader : t.reader = some (p, r.kind)) : (s.endReadSilently p).directory = s.directory.map (fun x =>
      if x.id = r.tile then { x with reader := none, consume := false } else x) := by
  rw [State.endReadSilently_released hread ht hreader, State.releaseReader]
  simp

theorem State.directory_endReadSilently_kept (hno : ∀ t, s.tile? r.tile = some t → t.reader ≠ some (p, r.kind)) :
    (s.endReadSilently p).directory = s.directory := by
  rw [State.endReadSilently_kept hread hno]
  simp

end Silent

/-- An entry of the directory stays, or loses its reader as the tile of the port's read. -/
theorem State.mem_directory_endReadSilently {s : State} (p : Port) {t : TileEntry} (h : t ∈ s.directory) :
    t ∈ (s.endReadSilently p).directory ∨
    ({ t with reader := none, consume := false } ∈ (s.endReadSilently p).directory ∧
      ∃ r, (s.port p).read = some r ∧ r.tile = t.id) := by
  rcases hread : (s.port p).read with _ | r
  · rw [State.endReadSilently_none hread]
    exact .inl h
  · by_cases hreader : ∃ x, s.tile? r.tile = some x ∧ x.reader = some (p, r.kind)
    · obtain ⟨x, hx, hreader⟩ := hreader
      rw [State.directory_endReadSilently_released hread hx hreader]
      by_cases hid : t.id = r.tile
      · exact .inr ⟨List.mem_map.2 ⟨t, h, if_pos hid⟩, r, rfl, hid.symm⟩
      · exact .inl (List.mem_map.2 ⟨t, h, if_neg hid⟩)
    · rw [State.directory_endReadSilently_kept hread (fun x hx h => hreader ⟨x, hx, h⟩)]
      exact .inl h

/-! ### The FINISHED programs of the port (03 R76, 07 R160) -/

theorem State.foldl_dropProgram (s : State) (tags : List Nat) : tags.foldl State.dropProgram s = { s with
    programs := s.programs.filter (fun x => decide (x.tag ∉ tags))
    directory := s.directory.filter (fun x => !decide (x.id.tag ∈ tags ∧ x.state = .failed)) } := by
  induction tags generalizing s with
  | nil => simp
  | cons tag tags ih =>
    rw [List.foldl_cons, ih, State.dropProgram_eq]
    simp only [List.filter_filter]
    congr 1
    · refine List.filter_congr fun x _ => ?_
      by_cases hx : x.tag = tag <;> simp [hx]
    · refine List.filter_congr fun x _ => ?_
      by_cases hx : x.id.tag = tag <;> by_cases hst : x.state = .failed <;> simp [hx, hst]

/-- The tags of the FINISHED programs that a port submitted. -/
def State.finishedTags (s : State) (p : Port) : List Nat :=
  (s.programs.filter (fun g => decide (g.port = p) && decide (g.state = .finished))).map (·.tag)

theorem State.mem_finishedTags (s : State) (p : Port) (tag : Nat) :
    tag ∈ s.finishedTags p ↔ ∃ g ∈ s.programs, g.port = p ∧ g.state = .finished ∧ g.tag = tag := by
  simp only [State.finishedTags, List.mem_map, List.mem_filter, Bool.and_eq_true, decide_eq_true_eq]
  exact ⟨fun ⟨g, ⟨hg, hport, hst⟩, htag⟩ => ⟨g, hg, hport, hst, htag⟩,
    fun ⟨g, hg, hport, hst, htag⟩ => ⟨g, ⟨hg, hport, hst⟩, htag⟩⟩

theorem State.dropFinished_eq (s : State) (p : Port) : s.dropFinished p = { s with
    programs := s.programs.filter (fun x => decide (x.tag ∉ s.finishedTags p))
    directory := s.directory.filter (fun x => !decide (x.id.tag ∈ s.finishedTags p ∧ x.state = .failed)) } :=
  State.foldl_dropProgram s (s.finishedTags p)

/-! ### The command -/

/-- The state before the FINISHED programs of the port go: its keep, its read, its entries and its view are cleared. -/
def State.viewCleared (s : State) (p : Port) : State :=
  ((((s.dropKeep p).endReadSilently p).dropEntries p)).setPort p
    (((((s.dropKeep p).endReadSilently p).dropEntries p)).port p).resetView

theorem exec_portReset {s : State} {p : Port} {m : Message} {rest : List Message} (h : Asks s p m rest .portReset) :
    exec (.portReset p) s =
      .next ((s.taken p rest).serveFreed (((s.taken p rest).viewCleared p).dropFinished p) p) :=
  exec_command_of_asks (r := .portReset) h

section Cleared

variable {s : State} {p : Port}

theorem State.port_viewCleared (s : State) (p : Port) :
    (s.viewCleared p).port p = (((s.dropKeep p).endReadSilently p).port p).resetView := by
  rw [State.viewCleared, State.port_setPort_self, State.dropEntries_port]

theorem State.viewCleared_plate (i : Nat) : (s.viewCleared p).plate i = (s.dropKeep p).plate i :=
  State.plate_congr (by simp [State.viewCleared]) i

theorem State.viewCleared_directory : (s.viewCleared p).directory = ((s.dropKeep p).endReadSilently p).directory := by
  simp [State.viewCleared]

theorem State.viewCleared_programs : (s.viewCleared p).programs = s.programs := by
  rw [State.viewCleared, State.setPort_programs]
  change ((s.dropKeep p).endReadSilently p).programs = _
  rw [show ((s.dropKeep p).endReadSilently p).programs = (s.dropKeep p).programs by simp, State.dropKeep_eq]

end Cleared

/-- The state that PORT_RESET clears a port to, before the claims for a free entry are served (log 24). -/
def State.portCleared (s : State) (p : Port) (rest : List Message) : State :=
  ((s.taken p rest).viewCleared p).dropFinished p

section PortCleared

variable (s : State) (p : Port) (rest : List Message)

theorem State.port_dropKeep_taken : ((s.taken p rest).dropKeep p).port p = { s.port p with inbound := rest } :=
  (State.port_congr (by rw [State.dropKeep_eq]) p).trans (State.port_taken s p rest)

theorem State.tile?_dropKeep_taken (id : TileId) : ((s.taken p rest).dropKeep p).tile? id = s.tile? id := by
  rw [State.dropKeep_eq]
  exact State.tile?_taken s p rest id

theorem State.directory_dropKeep_taken : ((s.taken p rest).dropKeep p).directory = s.directory := by
  rw [State.dropKeep_eq]
  simp

theorem State.finishedTags_viewCleared_taken : ((s.taken p rest).viewCleared p).finishedTags p = s.finishedTags p := by
  simp [State.finishedTags, State.viewCleared_programs]

theorem State.port_portCleared :
    (s.portCleared p rest).port p = ((((s.taken p rest).dropKeep p).endReadSilently p).port p).resetView := by
  rw [← State.port_viewCleared]
  exact State.port_congr (by rw [State.portCleared, State.dropFinished_eq]) p

theorem State.plate_portCleared (i : Nat) : (s.portCleared p rest).plate i = ((s.taken p rest).dropKeep p).plate i :=
  (State.plate_congr (by rw [State.portCleared, State.dropFinished_eq]) i).trans (State.viewCleared_plate i)

theorem State.directory_portCleared : (s.portCleared p rest).directory =
    (((s.taken p rest).dropKeep p).endReadSilently p).directory.filter
      (fun x => !decide (x.id.tag ∈ s.finishedTags p ∧ x.state = .failed)) := by
  rw [State.portCleared, State.dropFinished_eq, State.finishedTags_viewCleared_taken, State.viewCleared_directory]

theorem State.programs_portCleared :
    (s.portCleared p rest).programs = s.programs.filter (fun x => decide (x.tag ∉ s.finishedTags p)) := by
  rw [State.portCleared, State.dropFinished_eq, State.finishedTags_viewCleared_taken, State.viewCleared_programs]
  simp

theorem State.portCleared_rest : (s.portCleared p rest).settings = s.settings ∧ (s.portCleared p rest).cal = s.cal ∧
    (s.portCleared p rest).unit = s.unit ∧ (s.portCleared p rest).pages = s.pages ∧
    (s.portCleared p rest).freePages = s.freePages ∧ (s.portCleared p rest).sent = [] := by
  rw [State.portCleared, State.dropFinished_eq]
  simp only [State.viewCleared, State.setPort_settings, State.setPort_cal, State.setPort_unit, State.setPort_pages,
    State.setPort_freePages, State.setPort_sent, State.dropEntries, State.endReadSilently_rest]
  rw [State.dropKeep_eq]
  simp

theorem State.entries_portCleared : ∀ e ∈ (s.portCleared p rest).entries, e.port ≠ p := by
  intro e he
  rw [State.portCleared, State.dropFinished_eq, State.viewCleared] at he
  simp only [State.setPort_entries, State.dropEntries, List.mem_filter, decide_eq_true_eq] at he
  exact he.2

/-- The keep set of the stage occupant's plate loses the port. -/
theorem State.plate_portCleared_occupant {i : Nat} {pl : Plate} (ho : s.occupant = some i) (hp : s.plate i = some pl) :
    (s.portCleared p rest).plate i = some { pl with keeps := pl.keeps.put p false } := by
  have ho' : (s.taken p rest).occupant = some i := by rw [State.taken_occupant, ho]
  have hp' : (s.taken p rest).plate i = some pl := by rw [State.plate_taken, hp]
  rw [State.plate_portCleared, State.dropKeep_occupied ho' hp', State.plate_setPlate,
    if_pos ⟨rfl, State.lt_of_plate hp⟩]

theorem State.plate_portCleared_other {i : Nat} (ho : s.occupant ≠ some i) :
    (s.portCleared p rest).plate i = s.plate i := by
  rw [State.plate_portCleared, State.plate_dropKeep_other _ _ (by rwa [State.taken_occupant]), State.plate_taken]

variable {s p}

theorem State.port_portCleared_noRead (h : (s.port p).read = none) :
    (s.portCleared p rest).port p = ({ s.port p with inbound := rest } : PortState).resetView := by
  have hnone : (((s.taken p rest).dropKeep p).port p).read = none := by rw [State.port_dropKeep_taken]; exact h
  rw [State.port_portCleared, State.endReadSilently_none hnone, State.port_dropKeep_taken]

theorem State.port_portCleared_read {r : Read} (h : (s.port p).read = some r) : ∃ q,
    ReadGone { s.port p with inbound := rest } q ∧ (s.portCleared p rest).port p = q.resetView := by
  have hread : (((s.taken p rest).dropKeep p).port p).read = some r := by rw [State.port_dropKeep_taken]; exact h
  refine ⟨_, ?_, State.port_portCleared s p rest⟩
  rw [← State.port_dropKeep_taken]
  exact State.port_endReadSilently hread

/-- An entry of the directory goes with a FINISHED program of the port, and otherwise stays, or loses its reader as the
tile of the port's read. -/
theorem State.mem_directory_portCleared {t : TileEntry} (h : t ∈ s.directory)
    (hkept : ¬ (t.id.tag ∈ s.finishedTags p ∧ t.state = .failed)) : t ∈ (s.portCleared p rest).directory ∨
    ({ t with reader := none, consume := false } ∈ (s.portCleared p rest).directory ∧
      ∃ r, (s.port p).read = some r ∧ r.tile = t.id) := by
  have hmem : t ∈ ((s.taken p rest).dropKeep p).directory := by rw [State.directory_dropKeep_taken]; exact h
  have htest : (!decide (t.id.tag ∈ s.finishedTags p ∧ t.state = .failed)) = true := by simp only [hkept]; rfl
  rw [State.directory_portCleared]
  rcases State.mem_directory_endReadSilently p hmem with hin | ⟨hin, r, hread, hid⟩
  · exact .inl (List.mem_filter.2 ⟨hin, htest⟩)
  · rw [State.port_dropKeep_taken] at hread
    exact .inr ⟨List.mem_filter.2 ⟨hin, htest⟩, r, hread, hid⟩

theorem State.reader_portCleared {r : Read} {t : TileEntry} (hread : (s.port p).read = some r)
    (ht : s.tile? r.tile = some t) (hreader : t.reader = some (p, r.kind)) :
    ∀ x ∈ (s.portCleared p rest).directory, x.id = r.tile → x.reader = none := by
  intro x hx hid
  have hread' : (((s.taken p rest).dropKeep p).port p).read = some r := by rw [State.port_dropKeep_taken]; exact hread
  have ht' : ((s.taken p rest).dropKeep p).tile? r.tile = some t := by rw [State.tile?_dropKeep_taken, ht]
  rw [State.directory_portCleared, State.directory_endReadSilently_released hread' ht' hreader] at hx
  obtain ⟨hx, -⟩ := List.mem_filter.1 hx
  obtain ⟨y, -, rfl⟩ := List.mem_map.1 hx
  split at hid
  next h => rw [if_pos h]
  next h => exact absurd hid h

end PortCleared

/-- Settles O58, from what each part of the reset leaves: the keep, the read, the entries, the view, the FINISHED
programs. -/
theorem portResetClearsThePort : Obligations.PortResetClearsThePort := by
  unfold Obligations.PortResetClearsThePort
  intro s p m rest hasks
  obtain ⟨hsettings, hcal, hunit, hpages, hfree, hsent⟩ := s.portCleared_rest p rest
  have htag := s.mem_finishedTags p
  refine ⟨s.portCleared p rest, exec_portReset hasks, ?_⟩
  suffices hport : ((s.portCleared p rest).port p).windowBase = 0 ∧ ((s.portCleared p rest).port p).windowLimit = 31 ∧
      ((s.portCleared p rest).port p).previewFlag = false ∧ ((s.portCleared p rest).port p).read = none ∧
      ((s.portCleared p rest).port p).link = (s.port p).link ∧
      ((s.portCleared p rest).port p).upCount = (s.port p).upCount ∧ ((s.portCleared p rest).port p).inbound = rest ∧
      ((s.portCleared p rest).port p).retry = (s.port p).retry ∧
      ((s.port p).read = none → ((s.portCleared p rest).port p).outbound = (s.port p).outbound) ∧
      ∃ more : List OutEntry, more.length ≤ 1 ∧ (∀ e ∈ more, e.isOpenStream = false) ∧
        ((s.port p).read ≠ none → ((s.portCleared p rest).port p).outbound =
          (s.port p).outbound.filter (fun e => !e.isOpenStream) ++ more) by
    obtain ⟨hbase, hlimit, hflag, hread, hlink, hup, hin, hretry, hnone, more, hlen, hclosed, hmore⟩ := hport
    refine ⟨hbase, hlimit, hflag, hread, hlink, hup, hin, hretry, fun h e he => ?_, hnone, ⟨more, hlen, hmore⟩,
      fun t ht hst g hg hport hfin hg' => ?_, fun t ht hkept => ?_,
      fun r t hread ht hreader => State.reader_portCleared rest hread ht hreader, hfree, s.entries_portCleared p rest,
      fun i pl ho hp => ⟨_, s.plate_portCleared_occupant p rest ho hp, ?_, fun q hq => ?_⟩,
      fun i ho => s.plate_portCleared_other p rest ho, fun g hg => ?_, fun g hg hkept => ?_,
      hsettings, hcal, hunit, hpages, hsent⟩
    · rw [hmore h] at he
      rcases List.mem_append.1 he with he | he
      · simpa using (List.mem_filter.1 he).2
      · exact hclosed e he
    · rw [State.directory_portCleared] at ht
      have htest := (List.mem_filter.1 ht).2
      exact absurd htest (by simp [hst, (htag t.id.tag).2 ⟨g, hg, hport, hfin, hg'⟩])
    · refine State.mem_directory_portCleared rest ht fun ⟨hmem, hst⟩ => ?_
      obtain ⟨g, hg, hport, hfin, hg'⟩ := (htag _).1 hmem
      exact hkept hst g hg hport hfin hg'
    · rw [PortSet.has_put, if_pos rfl]
    · rw [PortSet.has_put, if_neg hq]
    · rw [State.programs_portCleared] at hg
      obtain ⟨hmem, htest⟩ := List.mem_filter.1 hg
      exact ⟨hmem, fun ⟨hport, hfin⟩ => by simp [(htag g.tag).2 ⟨g, hmem, hport, hfin, rfl⟩] at htest⟩
    · rw [State.programs_portCleared]
      refine List.mem_filter.2 ⟨hg, decide_eq_true fun hmem => ?_⟩
      obtain ⟨f, hf, hport, hfin, hf'⟩ := (htag _).1 hmem
      exact hkept f hf hport hfin hf'
  rcases hread : (s.port p).read with _ | r
  · rw [State.port_portCleared_noRead rest hread]
    exact ⟨rfl, rfl, rfl, hread, rfl, rfl, rfl, rfl, fun _ => rfl, [], by simp, by simp, fun h => absurd rfl h⟩
  · obtain ⟨q, hgone, hq⟩ := State.port_portCleared_read rest hread
    obtain ⟨more, hlen, hclosed, hmore⟩ := hgone.outbound
    rw [hq]
    exact ⟨rfl, rfl, rfl, hgone.read, hgone.link, hgone.upCount, hgone.inbound, hgone.retry, nofun, more, hlen, hclosed,
      fun _ => hmore⟩

end Sys2Proof.Machine

end

section
/-! The merge of a line: the line written and offered, the tile completed, the program that counts it, and the head that
follows. -/

namespace Sys2Proof.Machine

/-! ### The statistics (06 R142) -/

theorem lowest_eq_min? (a : Option Nat) (v : Nat) (l : List Nat) :
    ((lowest a v).toList ++ l).min? = (a.toList ++ v :: l).min? := by
  cases a <;> rfl

theorem highest_eq_max? (a : Option Nat) (v : Nat) (l : List Nat) :
    ((highest a v).toList ++ l).max? = (a.toList ++ v :: l).max? := by
  cases a <;> rfl

/-- The count of the class of a sample rises by one, and no other count changes (06 R142). -/
theorem TileStats.add_counts (u : TileStats) (x : SampleClass × Nat) :
    (u.add x).normalCount = u.normalCount + (if x.1 = .normal then 1 else 0) ∧
    (u.add x).underCount = u.underCount + (if x.1 = .under then 1 else 0) ∧
    (u.add x).overCount = u.overCount + (if x.1 = .above then 1 else 0) ∧
    (u.add x).gapCount = u.gapCount + (if x.1 = .gap then 1 else 0) ∧
    (u.add x).negCount = u.negCount + (if x.1 = .neg then 1 else 0) ∧
    (u.add x).ceilCount = u.ceilCount + (if x.1 = .ceil then 1 else 0) := by
  obtain ⟨k, v⟩ := x
  cases k <;> simp [TileStats.add]

theorem TileStats.add_dose (u : TileStats) (x : SampleClass × Nat) : (u.add x).dose = u.dose := by
  obtain ⟨k, v⟩ := x
  cases k <;> rfl

/-- The codes of the NORMAL samples of a line (06 R142). -/
def normalValues (xs : List (SampleClass × Nat)) : List Nat := (xs.filter (fun x => decide (x.1 = .normal))).map (·.2)

theorem TileStats.add_extremes (u : TileStats) (x : SampleClass × Nat) (l : List Nat) :
    ((u.add x).least.toList ++ l).min? = (u.least.toList ++ (normalValues [x] ++ l)).min? ∧
    ((u.add x).greatest.toList ++ l).max? = (u.greatest.toList ++ (normalValues [x] ++ l)).max? := by
  obtain ⟨k, v⟩ := x
  cases k
  case normal => exact ⟨lowest_eq_min? _ _ _, highest_eq_max? _ _ _⟩
  all_goals exact ⟨rfl, rfl⟩

theorem TileStats.addLine_counts (u : TileStats) (xs : List (SampleClass × Nat)) :
    (u.addLine xs).normalCount = u.normalCount + xs.countP (fun x => decide (x.1 = .normal)) ∧
    (u.addLine xs).underCount = u.underCount + xs.countP (fun x => decide (x.1 = .under)) ∧
    (u.addLine xs).overCount = u.overCount + xs.countP (fun x => decide (x.1 = .above)) ∧
    (u.addLine xs).gapCount = u.gapCount + xs.countP (fun x => decide (x.1 = .gap)) ∧
    (u.addLine xs).negCount = u.negCount + xs.countP (fun x => decide (x.1 = .neg)) ∧
    (u.addLine xs).ceilCount = u.ceilCount + xs.countP (fun x => decide (x.1 = .ceil)) := by
  induction xs generalizing u with
  | nil => exact ⟨rfl, rfl, rfl, rfl, rfl, rfl⟩
  | cons x xs ih =>
    obtain ⟨h1, h2, h3, h4, h5, h6⟩ := ih (u.add x)
    obtain ⟨k1, k2, k3, k4, k5, k6⟩ := u.add_counts x
    simp only [TileStats.addLine, List.foldl_cons] at h1 h2 h3 h4 h5 h6 ⊢
    simp only [List.countP_cons, decide_eq_true_eq, h1, h2, h3, h4, h5, h6, k1, k2, k3, k4, k5, k6]
    omega

theorem TileStats.addLine_dose (u : TileStats) (xs : List (SampleClass × Nat)) : (u.addLine xs).dose = u.dose := by
  induction xs generalizing u with
  | nil => rfl
  | cons x xs ih => exact (ih (u.add x)).trans (u.add_dose x)

theorem TileStats.addLine_extremes (u : TileStats) (xs : List (SampleClass × Nat)) :
    (u.addLine xs).least = (u.least.toList ++ normalValues xs).min? ∧
    (u.addLine xs).greatest = (u.greatest.toList ++ normalValues xs).max? := by
  induction xs generalizing u with
  | nil =>
    obtain ⟨_, _, _, _, _, _, least, greatest⟩ := u
    exact ⟨by cases least <;> rfl, by cases greatest <;> rfl⟩
  | cons x xs ih =>
    have hsplit : normalValues (x :: xs) = normalValues [x] ++ normalValues xs := by
      simp only [normalValues, ← List.map_append, ← List.filter_append, List.singleton_append]
    obtain ⟨hleast, hgreatest⟩ := ih (u.add x)
    obtain ⟨kleast, kgreatest⟩ := u.add_extremes x (normalValues xs)
    exact ⟨by rw [hsplit, ← kleast]; exact hleast, by rw [hsplit, ← kgreatest]; exact hgreatest⟩

/-- Each sample is counted in one class (06 R142). -/
theorem countP_classes (xs : List (SampleClass × Nat)) :
    xs.countP (fun x => decide (x.1 = .normal)) + xs.countP (fun x => decide (x.1 = .under)) +
      xs.countP (fun x => decide (x.1 = .above)) + xs.countP (fun x => decide (x.1 = .gap)) +
      xs.countP (fun x => decide (x.1 = .neg)) + xs.countP (fun x => decide (x.1 = .ceil)) = xs.length := by
  induction xs with
  | nil => rfl
  | cons x xs ih =>
    obtain ⟨k, v⟩ := x
    simp only [List.countP_cons, List.length_cons, decide_eq_true_eq]
    cases k <;> simp <;> omega

/-! ### Tile entries after a change -/

theorem State.tile?_congr {s u : State} (h : u.directory = s.directory) (id : TileId) : u.tile? id = s.tile? id := by
  rw [State.tile?, State.tile?, h]

theorem State.tile?_modTile (s : State) (id : TileId) (f : TileEntry → TileEntry) (hf : ∀ x, (f x).id = x.id) :
    (s.modTile id f).tile? id = (s.tile? id).map f := by
  unfold State.tile? State.modTile
  induction s.directory with
  | nil => rfl
  | cons x l ih =>
    by_cases hx : x.id = id
    · simp [hx, hf]
    · simpa [List.map_cons, List.find?_cons, hx] using ih

theorem State.tile?_modTile_of_ne (s : State) {id other : TileId} (h : other ≠ id) (f : TileEntry → TileEntry)
    (hf : ∀ x, (f x).id = x.id) : (s.modTile id f).tile? other = s.tile? other := by
  unfold State.tile? State.modTile
  induction s.directory with
  | nil => rfl
  | cons x l ih =>
    by_cases hx : x.id = other
    · simp [hx, h]
    · by_cases hid : x.id = id
      · simpa [hid, hf, Ne.symm h] using ih
      · simpa [hid, hx] using ih

/-- An entry that is not FAILED stays when a record leaves the queue (07 R160). -/
theorem State.tile?_dropProgram {s : State} {id : TileId} {t : TileEntry} (ht : s.tile? id = some t)
    (hst : t.state ≠ .failed) (tag : Nat) : (s.dropProgram tag).tile? id = some t := by
  have hdir : (s.dropProgram tag).directory =
      s.directory.filter (fun x => !decide (x.id.tag = tag ∧ x.state = .failed)) := by rw [State.dropProgram_eq]
  unfold State.tile? at ht ⊢
  rw [hdir]
  revert ht
  induction s.directory with
  | nil => exact fun h => h
  | cons x l ih =>
    by_cases hx : x.id = id
    · intro ht
      obtain rfl : x = t := by simpa [hx] using ht
      simp [hst, hx]
    · intro ht
      have hl := ih (by simpa [hx] using ht)
      by_cases hgone : x.id.tag = tag ∧ x.state = .failed
      · simpa [hgone] using hl
      · simpa [hgone, hx] using hl

theorem State.tile?_countCompleted {s : State} {id : TileId} {t : TileEntry} (ht : s.tile? id = some t)
    (hst : t.state ≠ .failed) (tag : Nat) : (s.countCompleted tag).tile? id = some t := by
  have hdone : ∀ u : State, u.tile? id = some t → (u.deliverDone tag).tile? id = some t := fun u hu => by
    unfold State.deliverDone
    repeat' split
    · exact hu
    · exact State.tile?_dropProgram ((State.tile?_congr (by simp) id).trans hu) hst tag
    · exact hu
  unfold State.countCompleted
  dsimp only
  repeat' split
  · exact ht
  · exact hdone _ ht
  · exact ht

/-! ### The next head (06 R122) -/

section NextHead

variable {s : State} {head : TileId} {rest : List TileId} (hqueue : s.mergeQueue = head :: rest)
include hqueue

theorem State.nextHead_cases :
    s.nextHead = { s with mergeQueue := rest, mergeContext := none } ∨ ∃ id tail, rest = id :: tail ∧
      s.nextHead = State.beginMerge { s with mergeQueue := rest, mergeContext := none } id := by
  unfold State.nextHead
  rw [hqueue]
  cases rest with
  | nil => exact .inl rfl
  | cons id tail => exact .inr ⟨id, tail, rfl, rfl⟩

theorem State.nextHead_mergeQueue : s.nextHead.mergeQueue = rest := by
  rcases State.nextHead_cases hqueue with h | ⟨id, tail, -, h⟩
  · rw [h]
  · simp [h]

theorem State.nextHead_mergeContext {next : MergeContext} (hnext : s.nextHead.mergeContext = some next) :
    rest.head? = some next.id ∧ next.nextLine = 0 := by
  rcases State.nextHead_cases hqueue with h | ⟨id, tail, hrest, h⟩
  · rw [h] at hnext
    cases hnext
  · rw [h] at hnext
    unfold State.beginMerge at hnext
    repeat' split at hnext
    · cases hnext
    · cases hnext
    · cases hnext
      rw [hrest]
      exact ⟨rfl, rfl⟩

theorem State.tile?_nextHead {other : TileId} (hno : other ∉ rest) : s.nextHead.tile? other = s.tile? other := by
  rcases State.nextHead_cases hqueue with h | ⟨id, tail, hrest, h⟩
  · rw [h]
    rfl
  · have hne : other ≠ id := fun e => hno (by simp [hrest, e])
    rw [h]
    unfold State.beginMerge
    repeat' split
    · rfl
    · rfl
    · exact State.tile?_modTile_of_ne _ hne _ (by exact fun _ => rfl)

end NextHead

/-! ### Windows and preview flags -/

/-- The windows and the preview flags of every port are the same. -/
def State.SameViews (u s : State) : Prop := ∀ p, (u.port p).windowBase = (s.port p).windowBase ∧
  (u.port p).windowLimit = (s.port p).windowLimit ∧ (u.port p).previewFlag = (s.port p).previewFlag

theorem State.SameViews.of_ports {u s : State} (h : u.ports = s.ports) : u.SameViews s := fun p => by
  rw [State.port_congr h p]
  exact ⟨rfl, rfl, rfl⟩

theorem State.SameViews.trans {u v s : State} (h : u.SameViews v) (k : v.SameViews s) : u.SameViews s := fun p => by
  obtain ⟨h1, h2, h3⟩ := h p
  obtain ⟨k1, k2, k3⟩ := k p
  exact ⟨h1.trans k1, h2.trans k2, h3.trans k3⟩

theorem State.SameViews.setPort {s : State} {p : Port} {q : PortState} (hbase : q.windowBase = (s.port p).windowBase)
    (hlimit : q.windowLimit = (s.port p).windowLimit) (hflag : q.previewFlag = (s.port p).previewFlag) :
    (s.setPort p q).SameViews s := fun r => by
  rw [State.port_setPort]
  split
  · next h => subst h; exact ⟨hbase, hlimit, hflag⟩
  · exact ⟨rfl, rfl, rfl⟩

theorem State.SameViews.place (s : State) (p : Port) (e : OutEntry) : (s.place p e).SameViews s :=
  .setPort (by simp) (by simp) (by simp)

theorem State.SameViews.offerPreview (s : State) (t : TileEntry) (y : Nat) (codes : List (BitVec 16)) (p : Port) :
    (s.offerPreview t y codes p).SameViews s := by
  unfold State.offerPreview
  split
  · exact .place _ _ _
  · exact .of_ports rfl

theorem State.SameViews.sendTileReady (s : State) (id : TileId) (p : Port) : (s.sendTileReady id p).SameViews s := by
  rcases s.sendTileReady_cases id p with h | ⟨m, h⟩
  · exact .of_ports (by rw [h])
  · rw [h]
    exact .place _ _ _

theorem State.SameViews.judgeBurst (s : State) (p : Port) : (s.judgeBurst p).SameViews s := by
  unfold State.judgeBurst
  repeat' split
  · exact .of_ports rfl
  · exact .setPort rfl rfl rfl
  · exact .setPort (by simp) (by simp) (by simp)
  · exact .of_ports rfl

theorem State.SameViews.judgeTileBurst (s : State) (id : TileId) : (s.judgeTileBurst id).SameViews s := by
  unfold State.judgeTileBurst
  repeat' split
  · exact .judgeBurst _ _
  · exact .of_ports rfl
  · exact .of_ports rfl

theorem State.SameViews.lineMerged (s : State) (c : MergeContext) (k : CalParams) (t : TileEntry) :
    (s.lineMerged c k t).SameViews s := by
  unfold State.lineMerged
  refine .trans (.judgeTileBurst _ _) ?_
  split
  · exact .trans (.offerPreview _ _ _ _ _) (.trans (.offerPreview _ _ _ _ _) (.trans (.offerPreview _ _ _ _ _)
      (.of_ports rfl)))
  · exact .of_ports rfl

theorem State.SameViews.covers_iff {u s : State} (h : u.SameViews s) (p : Port) (i : Nat) :
    (u.port p).covers i = true ↔ (s.port p).windowBase ≤ i ∧ i ≤ (s.port p).windowLimit := by
  obtain ⟨hbase, hlimit, -⟩ := h p
  rw [PortState.covers_iff, hbase, hlimit]

section Seen

variable {u s : State} (h : u.SameViews s) (p : Port)
include h

theorem State.offerPreview_seen (t : TileEntry) (y : Nat) (codes : List (BitVec 16)) : u.offerPreview t y codes p =
    if (s.port p).previewFlag = true ∧ (s.port p).windowBase ≤ t.slot ∧ t.slot ≤ (s.port p).windowLimit then
      u.place p (.message { kind := .preview, code := .byte 0, tag := 0, status := none
                            body := .preview t.id t.slot y (previewCodes codes) })
    else u := by
  simp only [State.offerPreview, h.covers_iff, (h p).2.2]

theorem State.sendTileReady_seen {id : TileId} {t : TileEntry} (ht : u.tile? id = some t) : u.sendTileReady id p =
    if (s.port p).windowBase ≤ t.slot ∧ t.slot ≤ (s.port p).windowLimit then
      u.place p (notice .tileReady (.tileReady id t.slot t.accession t.width t.height (u.entryFlagFor p t).1
        (u.entryFlagFor p t).2))
    else u := by
  simp only [State.sendTileReady, ht, h.covers_iff]

end Seen

theorem State.entryFlagFor_congr {u s : State} (h : u.entries = s.entries) (p : Port) (t : TileEntry) :
    u.entryFlagFor p t = s.entryFlagFor p t := by
  rw [State.entryFlagFor, State.entryFlagFor, h]

/-! ### The burst of the tile's reader -/

section Burst

variable {s : State} {id : TileId} {t : TileEntry} (ht : s.tile? id = some t)
include ht

theorem State.judgeTileBurst_read {p : Port} {k : ReadKind} (h : t.reader = some (p, k)) :
    s.judgeTileBurst id = s.judgeBurst p := by
  simp only [State.judgeTileBurst, ht, h]

theorem State.judgeTileBurst_unread (h : t.reader = none) : s.judgeTileBurst id = s := by
  simp only [State.judgeTileBurst, ht, h]

end Burst

/-! ### A line merged (06 R124) -/

section Merged

variable (s : State) (c : MergeContext) (k : CalParams) (t : TileEntry)

/-- The entry of a tile with its line `y` merged (06 R124). -/
def TileEntry.withLine (t : TileEntry) (y : Nat) (xs : List (SampleClass × Nat)) : TileEntry :=
  { t with fill := y + 1, stats := t.stats.map (fun (u : TileStats) => u.addLine xs) }

/-- The line is in the output chain, and the tile's entry counts it (06 R124). -/
def State.lineWritten : State :=
  { s with pages := Memory.writeLine s.pages t.output c.width c.nextLine (lineCodes (s.mergedLine c k t)) }.modTile c.id
    (fun x => x.withLine c.nextLine (s.mergedLine c k t))

theorem mergedLine_length : (s.mergedLine c k t).length = c.width := by simp [State.mergedLine]

theorem previewCodes_mergedLine : previewCodes (lineCodes (s.mergedLine c k t)) =
    (List.range (c.width / 8)).map (fun i => (lineCodes (s.mergedLine c k t)).getD (8 * i) 0) := by
  simp only [previewCodes, lineCodes, List.length_map, mergedLine_length]

theorem State.lineMerged_written : (s.lineMerged c k t).pages = (s.lineWritten c k t).pages ∧
    (s.lineMerged c k t).directory = (s.lineWritten c k t).directory := by
  unfold State.lineMerged State.lineWritten TileEntry.withLine
  dsimp only
  split <;> simp

theorem State.tile?_lineWritten (ht : s.tile? c.id = some t) : (s.lineWritten c k t).tile? c.id =
    some (t.withLine c.nextLine (s.mergedLine c k t)) :=
  (State.tile?_modTile _ _ _ (by exact fun _ => rfl)).trans (congrArg (Option.map _) ht)

theorem State.tile?_lineMerged (ht : s.tile? c.id = some t) : (s.lineMerged c k t).tile? c.id =
    some (t.withLine c.nextLine (s.mergedLine c k t)) :=
  (State.tile?_congr (s.lineMerged_written c k t).2 c.id).trans (s.tile?_lineWritten c k t ht)

end Merged

/-! ### The tile completed (06 R126) -/

section Completed

variable (s : State) (t : TileEntry)

/-- The entry of a tile whose merge is complete (06 R126). -/
def TileEntry.completed (t : TileEntry) : TileEntry := { t with state := .complete, writer := false, raws := [] }

/-- The tile is COMPLETE without raw chains, its pages are free, and its WAITING entry is READY where it has no reader
(06 R126). -/
def State.tileCompleted : State := { s with
  freePages := s.freePages ++ t.raws.flatten
  directory := s.directory.map (fun x => if x.id = t.id then { x with
    state := .complete, writer := false, raws := [] } else x)
  entries := if t.reader = none then s.entries.map (fun e => if e.tile = t.id ∧ e.state = .waiting then
    { e with state := .ready, timer := some s.settings.discardTime } else e) else s.entries }

theorem State.raws_returned : ((s.modTile t.id (fun x => { x with state := .complete, writer := false })).returnPages
      t.raws.flatten).modTile t.id (fun x => { x with raws := [] }) = { s with
    freePages := s.freePages ++ t.raws.flatten
    directory := s.directory.map (fun x => if x.id = t.id then { x with
      state := .complete, writer := false, raws := [] } else x) } :=
  State.modTile_modTile (s.returnPages t.raws.flatten) t.id (fun x => { x with state := .complete, writer := false })
    (fun x => { x with raws := [] }) (fun _ => rfl)

theorem State.mergeCompleted_eq : s.mergeCompleted t =
    ((((((s.tileCompleted t).sendTileReady t.id .p0).sendTileReady t.id .p1).sendTileReady t.id .p2).judgeTileBurst
      t.id).countCompleted t.id.tag).nextHead := by
  simp only [State.mergeCompleted, State.raws_returned, State.tileCompleted, State.turnEntry]
  by_cases h : t.reader = none
  · simp only [if_pos h]
  · simp only [if_neg h]

theorem State.tile?_tileCompleted {x : TileEntry} (h : s.tile? t.id = some x) :
    (s.tileCompleted t).tile? t.id = some x.completed :=
  (s.tile?_modTile t.id TileEntry.completed (by exact fun _ => rfl)).trans (congrArg (Option.map _) h)

theorem State.tile?_mergeCompleted {x : TileEntry} (h : s.tile? t.id = some x) {rest : List TileId}
    (hqueue : s.mergeQueue = t.id :: rest) (hno : t.id ∉ rest) : (s.mergeCompleted t).tile? t.id =
      some x.completed := by
  rw [State.mergeCompleted_eq, State.tile?_nextHead (by simpa [State.tileCompleted] using hqueue) hno]
  refine State.tile?_countCompleted ?_ (by simp [TileEntry.completed]) _
  exact (State.tile?_congr (by simp) t.id).trans (s.tile?_tileCompleted t h)

end Completed

section CompletedQueue

variable {s : State} {t : TileEntry} {rest : List TileId} (hqueue : s.mergeQueue = t.id :: rest)
include hqueue

theorem State.mergeCompleted_mergeQueue : (s.mergeCompleted t).mergeQueue = rest := by
  rw [State.mergeCompleted_eq]
  exact State.nextHead_mergeQueue (by simpa [State.tileCompleted] using hqueue)

theorem State.mergeCompleted_mergeContext {next : MergeContext} (h : (s.mergeCompleted t).mergeContext = some next) :
    rest.head? = some next.id ∧ next.nextLine = 0 := by
  rw [State.mergeCompleted_eq] at h
  exact State.nextHead_mergeContext (by simpa [State.tileCompleted] using hqueue) h

end CompletedQueue

theorem State.mergeCompleted_freePages (s : State) (t : TileEntry) :
    (s.mergeCompleted t).freePages = s.freePages ++ t.raws.flatten := by
  simp [State.mergeCompleted_eq, State.tileCompleted]

/-! ### LINE_EVENT (06 R124, R126) -/

section LineEvent

variable {s : State} {c : MergeContext} {k : CalParams} {t : TileEntry} (hc : s.mergeContext = some c)
  (hk : s.cal.params = some k) (ht : s.tile? c.id = some t)
include hc hk ht

theorem exec_lineEvent_middle (h : c.nextLine + 1 < c.height) : exec .lineEvent s = .next {
    s.fresh.lineMerged c k t with mergeContext := some { c with nextLine := c.nextLine + 1 } } := by
  change execLineEvent s = _
  simp only [execLineEvent, hc, hk, ht, if_pos h]

theorem exec_lineEvent_last (h : c.height ≤ c.nextLine + 1) :
    exec .lineEvent s = .next (s.fresh.settle ((s.fresh.lineMerged c k t).mergeCompleted t)) := by
  change execLineEvent s = _
  simp only [execLineEvent, hc, hk, ht, if_neg (Nat.not_lt.2 h)]

end LineEvent

/-! ### The program counts the tile (03 R68) -/

section Count

variable {s : State} {g : Program} (hg : s.program? g.tag = some g)
include hg

theorem State.countCompleted_finished (hst : g.state = .merging) (hone : g.tilesInMerge ≤ 1) :
    s.countCompleted g.tag = (s.modProgram g.tag (fun x => { x with
      tilesInMerge := x.tilesInMerge - 1, tilesCompleted := x.tilesCompleted + 1 })).finishProgram g.tag := by
  have hlast : g.tilesInMerge - 1 = 0 := by omega
  unfold State.countCompleted
  dsimp only
  rw [State.program?_modProgram _ _ _ (by exact fun _ => rfl), hg]
  simp [hst, hlast]

theorem State.countCompleted_goesOn (h : g.state ≠ .merging ∨ 1 < g.tilesInMerge) :
    s.countCompleted g.tag = s.modProgram g.tag (fun x => { x with
      tilesInMerge := x.tilesInMerge - 1, tilesCompleted := x.tilesCompleted + 1 }) := by
  have hno : ¬ (g.state = .merging ∧ g.tilesInMerge - 1 = 0) := by
    rintro ⟨hst, hzero⟩
    rcases h with h | h
    · exact h hst
    · omega
  unfold State.countCompleted
  dsimp only
  rw [State.program?_modProgram _ _ _ (by exact fun _ => rfl), hg]
  simp only [Option.map_some, if_neg hno]

end Count

/-- Settles O49: the line merged, the statistics, the offers, the tile completed and counted, and the next head. -/
theorem lineEventMergesALine : Obligations.LineEventMergesALine := by
  unfold Obligations.LineEventMergesALine
  refine ⟨fun s c k t hc hk ht => ?_, fun u xs => ?_, fun s c k t hc hk ht => ?_, fun s g hg => ?_, fun s head => ?_,
    fun u xs => ?_, fun s c k t => ?_⟩
  · intro samples written
    have hlen : (lineCodes samples).length = c.width := by
      simp only [lineCodes, List.length_map, samples, mergedLine_length]
    refine ⟨fun a ha => Memory.read_writeLine_of_not_mem hlen ha, fun h => ?_, fun rest h hqueue hno => ?_⟩
    · exact ⟨_, exec_lineEvent_middle hc hk ht h, (s.fresh.lineMerged_written c k t).1, rfl,
        s.fresh.tile?_lineMerged c k t ht, by simp, by simp, by simp, by simp, by simp, by simp, by simp, by simp⟩
    · have hid := State.tile_id ht
      have hqueue' : (s.fresh.lineMerged c k t).mergeQueue = t.id :: rest := by simpa [hid] using hqueue
      have htile := s.fresh.tile?_lineMerged c k t ht
      rw [← hid] at htile
      refine ⟨_, exec_lineEvent_last hc hk ht h.ge, ?_, ?_, ?_, State.mergeCompleted_mergeQueue hqueue',
        fun _ => State.mergeCompleted_mergeContext hqueue', by simp, by simp, by simp, by simp⟩
      · have hpages : ((s.fresh.lineMerged c k t).mergeCompleted t).pages = (s.fresh.lineMerged c k t).pages := by simp
        exact hpages.trans (s.fresh.lineMerged_written c k t).1
      · rw [← hid, State.tile?_mergeCompleted _ _ htile hqueue' (hid ▸ hno), TileEntry.withLine, TileEntry.completed, h]
        rfl
      · simp [State.mergeCompleted_freePages]
  · obtain ⟨h1, h2, h3, h4, h5, h6⟩ := u.addLine_counts xs
    have hsum := countP_classes xs
    intro w
    exact ⟨by simp only [w]; omega, u.addLine_dose xs, h1⟩
  · intro samples codes covers offer judged merged line
    have hid := State.tile_id ht
    have hjudge : ∀ (u : State) (x : TileEntry), u.tile? c.id = some x → x.reader = t.reader →
        u.judgeTileBurst c.id = judged u := fun u x hx hreader => by
      simp only [judged]
      rcases hr : t.reader with _ | ⟨p, kind⟩
      · exact State.judgeTileBurst_unread hx (hreader.trans hr)
      · exact State.judgeTileBurst_read hx (hreader.trans hr)
    have hcodes : previewCodes codes = (List.range (c.width / 8)).map (fun i => codes.getD (8 * i) 0) :=
      previewCodes_mergedLine s c k t
    have hoffer : ∀ (u : State) (p : Port), u.SameViews s →
        u.offerPreview t c.nextLine codes p = offer u p := fun u p hu => by
      rw [State.offerPreview_seen hu, hid, hcodes]
    have hviews : merged.SameViews s := .of_ports rfl
    have hoffers : (if c.nextLine % 8 = 0 then offer (offer (offer merged .p0) .p1) .p2 else merged) =
        if c.nextLine % 8 = 0 then ((merged.offerPreview t c.nextLine codes .p0).offerPreview t c.nextLine codes
          .p1).offerPreview t c.nextLine codes .p2 else merged := by
      rw [← hoffer merged .p0 hviews, ← hoffer _ .p1 (.trans (.offerPreview _ _ _ _ _) hviews),
        ← hoffer _ .p2 (.trans (.offerPreview _ _ _ _ _) (.trans (.offerPreview _ _ _ _ _) hviews))]
    have hline : s.fresh.lineMerged c k t = line := by
      refine Eq.trans ?_ (hjudge _ _ ((State.tile?_congr (s := merged) ?_ c.id).trans
        (s.fresh.tile?_lineWritten c k t ht)) rfl)
      · exact congrArg (State.judgeTileBurst · c.id) hoffers.symm
      · rw [hoffers]
        split <;> simp
    refine ⟨fun h => by rw [exec_lineEvent_middle hc hk ht h, hline], fun h => ?_⟩
    intro complete flag tell
    have hcomplete : line.tileCompleted t = complete := by
      simp only [complete, State.tileCompleted, ← hline, hid]
      simp
    have htile : complete.tile? c.id = some (t.withLine c.nextLine samples).completed := by
      rw [← hcomplete, ← hline]
      exact (congrArg _ hid).symm.trans (State.tile?_tileCompleted _ t
        ((congrArg _ hid).trans (s.fresh.tile?_lineMerged c k t ht)))
    have hseen : complete.SameViews s := by
      rw [← hcomplete, ← hline]
      exact .trans (v := s.fresh.lineMerged c k t) (.of_ports rfl) (.trans (.lineMerged _ _ _ _) (.of_ports rfl))
    have htell : ∀ (u : State) (p : Port), u.SameViews s → u.directory = complete.directory →
        u.entries = complete.entries → u.sendTileReady c.id p = tell u p := fun u p hu hdir hentries => by
      rw [State.sendTileReady_seen hu p ((State.tile?_congr hdir c.id).trans htile), State.entryFlagFor_congr hentries]
      have hflag : complete.entryFlagFor p (t.withLine c.nextLine samples).completed = flag p := by
        simp only [State.entryFlagFor, TileEntry.withLine, TileEntry.completed, hid]
        rfl
      rw [hflag]
      rfl
    rw [exec_lineEvent_last hc hk ht h, hline, State.mergeCompleted_eq, hcomplete, hid,
      hjudge _ _ ((State.tile?_congr (by simp) c.id).trans htile) rfl,
      htell _ .p2 (.trans (.sendTileReady _ _ _) (.trans (.sendTileReady _ _ _) hseen)) (by simp) (by simp),
      htell _ .p1 (.trans (.sendTileReady _ _ _) hseen) (by simp) (by simp), htell complete .p0 hseen rfl rfl]
  · exact ⟨State.countCompleted_finished hg, State.countCompleted_goesOn hg⟩
  · refine ⟨fun h => ?_, fun id rest g d h hg hd => ?_⟩
    · rw [State.nextHead, h]
    · have hnext : s.nextHead = State.beginMerge { s with mergeQueue := id :: rest, mergeContext := none } id := by
        rw [State.nextHead, h]
      exact hnext.trans (State.beginMerge_of_tile hg hd)
  · obtain ⟨-, h2, h3, h4, h5, h6⟩ := u.addLine_counts xs
    obtain ⟨hleast, hgreatest⟩ := u.addLine_extremes xs
    exact ⟨h2, h3, h4, h5, h6, hleast, hgreatest⟩
  · simp only [State.mergedLine, State.rawLines, List.map_map]
    rfl

end Sys2Proof.Machine
end

section
/-! The layouts of outbound messages: fields one behind the other, and the status report. -/

namespace Sys2Proof.Machine

/-! ### Fields of a payload (10.3 to 10.9) -/

/-- Fields stand one behind the other from offset `o` on. -/
def Contiguous : Nat → List (Nat × List Octet) → Prop
  | _, [] => True
  | o, f :: rest => f.1 = o ∧ Contiguous (o + f.2.length) rest

@[simp] theorem contiguous_nil (o : Nat) : Contiguous o [] := trivial

@[simp] theorem contiguous_cons (o k : Nat) (f : List Octet) (rest : List (Nat × List Octet)) :
    Contiguous o ((k, f) :: rest) ↔ k = o ∧ Contiguous (o + f.length) rest := Iff.rfl

section Fields

variable {p rest : List Octet} {o n : Nat} {f : List Octet} {fields : List (Nat × List Octet)}

theorem HoldsField.of_append {before : List Octet} (hp : p = before ++ (f ++ rest)) (ho : before.length = o) :
    HoldsField p o f := by
  subst hp ho
  simp [HoldsField]

theorem HoldsField.append_left {q : List Octet} {k : Nat} (h : HoldsField p k f) (ho : q.length + k = o) :
    HoldsField (q ++ p) o f := by
  subst ho
  rw [HoldsField, ← List.drop_drop, List.drop_left]
  exact h

theorem HoldsField.of_contiguous {before : List Octet} (hc : Contiguous before.length fields)
    (hp : p = before ++ (fields.flatMap (·.2) ++ rest)) : ∀ x ∈ fields, HoldsField p x.1 x.2 := by
  induction fields generalizing before with
  | nil => simp
  | cons y fields ih =>
    obtain ⟨hy, hc⟩ := hc
    intro x hx
    rcases List.mem_cons.1 hx with rfl | hx
    · exact .of_append (rest := fields.flatMap (·.2) ++ rest) (hp.trans (by simp)) hy.symm
    · exact ih (before := before ++ y.2) (by simpa using hc) (hp.trans (by simp)) x hx

/-- Fields that follow one another from the start of a payload stand at their offsets. -/
theorem HoldsFields.of_contiguous (hc : Contiguous 0 fields) (hp : p = fields.flatMap (·.2) ++ rest)
    (hn : p.length = n) : HoldsFields p n fields :=
  ⟨hn, HoldsField.of_contiguous (before := []) hc hp⟩

/-- Records of one length stand at the multiples of it. -/
theorem HoldsField.of_flatMap {α : Type} {before : List Octet} (g : α → List Octet) (hg : ∀ x, (g x).length = n)
    {l : List α} (hp : p = before ++ (l.flatMap g ++ rest)) {k : Nat} {x : α} (hx : l[k]? = some x)
    (ho : before.length + n * k = o) : HoldsField p o (g x) := by
  induction l generalizing before k with
  | nil => simp at hx
  | cons y l ih =>
    cases k with
    | zero =>
      obtain rfl : y = x := by simpa using hx
      exact .of_append (before := before) (rest := l.flatMap g ++ rest) (hp.trans (by simp)) (by simpa using ho)
    | succ k =>
      refine ih (before := before ++ g y) (k := k) (hp.trans (by simp)) (by simpa using hx) ?_
      rw [List.length_append, hg, ← ho]
      ring

end Fields

@[simp] theorem u8Octets_length (v : Nat) : (u8Octets v).length = 1 := rfl
@[simp] theorem u16Octets_length (v : Nat) : (u16Octets v).length = 2 := rfl
@[simp] theorem u32Octets_length (v : Nat) : (u32Octets v).length = 4 := rfl
@[simp] theorem flagOctets_length (v : Bool) : (flagOctets v).length = 1 := rfl
@[simp] theorem nameOctets_length (v : Name) : (nameOctets v).length = 1 := rfl
@[simp] theorem zeroOctets_length (k : Nat) : (zeroOctets k).length = k := List.length_replicate
@[simp] theorem tileIdOctets_length (t : TileId) : (tileIdOctets t).length = 4 := rfl

theorem zeroOctets_one : zeroOctets 1 = u8Octets 0 := rfl

@[simp] theorem identityOctets_length : identityOctets.length = 8 := rfl

theorem u32Octets_eq (v : Nat) : u32Octets v = [.byte (BitVec.ofNat 8 v), .byte (BitVec.ofNat 8 (v / 256)),
    .byte (BitVec.ofNat 8 (v / 65536)), .byte (BitVec.ofNat 8 (v / 16777216))] := by
  simp [u32Octets, numOctets, leBytes, Nat.div_div_eq_div_mul]

/-! ### The status report (10.9) -/

section Status

/-- The state of the head tile in the report: the capture step, or zero (10.9). -/
def stepOctets (r : Option (Option CaptureStep × Nat)) : List Octet :=
  match r with
  | some (some st, _) => nameOctets (.captureStep st)
  | _ => u8Octets 0

/-- The fields of the status report before the programs, with their offsets (10.9). -/
def statusFields (r : StatusReport) : List (Nat × List Octet) :=
  [(0, identityOctets), (8, [.byte Config.revision]), (9, nameOctets (.calUnit r.calState)),
    (10, flagOctets r.cal.isSome), (11, u8Octets (r.cal.elim 0 (·.level))), (12, u32Octets r.generation),
    (16, u32Octets (r.cal.elim 0 (·.tRef))), (20, u16Octets (r.cal.elim 0 (·.width))), (22, flagOctets r.stage.isSome),
    (23, u8Octets (r.stage.elim 0 (·.1))), (24, r.stage.elim (u8Octets 0) (fun x => nameOctets (.plateState x.2))),
    (25, flagOctets r.indicator), (26, nameOctets (.unit r.unitState)), (27, u8Octets r.mergeDepth),
    (28, u16Octets r.freePages), (30, u8Octets r.entriesInUse), (31, u8Octets r.pendingEntries),
    (32, nameOctets (.link r.link)), (33, u8Octets r.windowBase), (34, u8Octets r.windowLimit),
    (35, flagOctets r.previewFlag), (36, u16Octets r.upCount.toNat), (38, u8Octets r.inboundDepth),
    (39, u8Octets r.outboundInUse), (40, flagOctets r.read.isSome),
    (41, r.read.elim (u8Octets 0) (fun d => nameOctets (.readKind d.kind))),
    (42, u16Octets (r.read.elim 0 (·.tile.tag)) ++ u16Octets (r.read.elim 0 (·.tile.index))),
    (46, u16Octets (r.read.elim 0 (·.position))), (48, u16Octets (r.read.elim 0 (·.delivered))),
    (50, u8Octets r.ownPending), (51, u8Octets r.ownFinished), (52, u8Octets r.ownNotices),
    (53, u8Octets r.programs.length), (54, flagOctets r.running.isSome), (55, stepOctets r.running),
    (56, u8Octets (r.running.elim 0 (·.2))), (57, u8Octets 0)]

/-- One program of the status report (10.9). -/
def programOctets (g : Nat × ProgramState) : List Octet :=
  u16Octets g.1 ++ nameOctets (.programState g.2) ++ u8Octets 0

theorem stepOctets_length (r : Option (Option CaptureStep × Nat)) : (stepOctets r).length = 1 := by
  rcases r with _ | ⟨_ | st, k⟩ <;> rfl

theorem statusFields_contiguous (r : StatusReport) : Contiguous 0 (statusFields r) := by
  unfold statusFields
  have hstage : (r.stage.elim (u8Octets 0) (fun x => nameOctets (.plateState x.2))).length = 1 := by
    cases r.stage <;> rfl
  have hread : (r.read.elim (u8Octets 0) (fun d => nameOctets (.readKind d.kind))).length = 1 := by
    cases r.read <;> rfl
  simp [hstage, hread, stepOctets_length]

/-! The parts of the report that a missing record leaves zero (10.9). -/

def calLevelOctets (r : Option CalParams) : List Octet :=
  match r with
  | some c => u8Octets c.level
  | none => zeroOctets 1

def calTimesOctets (r : Option CalParams) : List Octet :=
  match r with
  | some c => u32Octets c.tRef ++ u16Octets c.width
  | none => zeroOctets 6

def stageOctets (r : Option (Nat × Option PlateState)) : List Octet :=
  match r with
  | some (i, st) => u8Octets i ++ nameOctets (.plateState st)
  | none => zeroOctets 2

def readOctets (r : Option Read) : List Octet :=
  match r with
  | some d => nameOctets (.readKind d.kind) ++ tileIdOctets d.tile ++ u16Octets d.position ++ u16Octets d.delivered
  | none => zeroOctets 9

def runningOctets (r : Option (Option CaptureStep × Nat)) : List Octet :=
  match r with
  | some (some st, k) => nameOctets (.captureStep st) ++ u8Octets k
  | some (none, k) => zeroOctets 1 ++ u8Octets k
  | none => zeroOctets 2

theorem calLevelOctets_eq (r : Option CalParams) : calLevelOctets r = u8Octets (r.elim 0 (·.level)) := by
  cases r <;> rfl

theorem calTimesOctets_eq (r : Option CalParams) :
    calTimesOctets r = u32Octets (r.elim 0 (·.tRef)) ++ u16Octets (r.elim 0 (·.width)) := by
  cases r <;> rfl

theorem stageOctets_eq (r : Option (Nat × Option PlateState)) : stageOctets r =
    u8Octets (r.elim 0 (·.1)) ++ r.elim (u8Octets 0) (fun x => nameOctets (.plateState x.2)) := by
  cases r <;> rfl

theorem readOctets_eq (r : Option Read) : readOctets r =
    r.elim (u8Octets 0) (fun d => nameOctets (.readKind d.kind)) ++
      (u16Octets (r.elim 0 (·.tile.tag)) ++ u16Octets (r.elim 0 (·.tile.index)) ++
        (u16Octets (r.elim 0 (·.position)) ++ u16Octets (r.elim 0 (·.delivered)))) := by
  cases r <;> rfl

theorem runningOctets_eq (r : Option (Option CaptureStep × Nat)) :
    runningOctets r = stepOctets r ++ u8Octets (r.elim 0 (·.2)) := by
  rcases r with _ | ⟨_ | st, k⟩ <;> rfl

theorem statusOctets_parts (r : StatusReport) : statusOctets r =
    identityOctets ++ [.byte Config.revision] ++ nameOctets (.calUnit r.calState) ++ flagOctets r.cal.isSome ++
    calLevelOctets r.cal ++ u32Octets r.generation ++ calTimesOctets r.cal ++ flagOctets r.stage.isSome ++
    stageOctets r.stage ++ flagOctets r.indicator ++ nameOctets (.unit r.unitState) ++ u8Octets r.mergeDepth ++
    u16Octets r.freePages ++ u8Octets r.entriesInUse ++ u8Octets r.pendingEntries ++ nameOctets (.link r.link) ++
    u8Octets r.windowBase ++ u8Octets r.windowLimit ++ flagOctets r.previewFlag ++ u16Octets r.upCount.toNat ++
    u8Octets r.inboundDepth ++ u8Octets r.outboundInUse ++ flagOctets r.read.isSome ++ readOctets r.read ++
    u8Octets r.ownPending ++ u8Octets r.ownFinished ++ u8Octets r.ownNotices ++ u8Octets r.programs.length ++
    flagOctets r.running.isSome ++ runningOctets r.running ++ zeroOctets 1 ++ r.programs.flatMap programOctets := rfl

theorem statusOctets_eq (r : StatusReport) :
    statusOctets r = (statusFields r).flatMap (·.2) ++ r.programs.flatMap programOctets := by
  rw [statusOctets_parts, calLevelOctets_eq, calTimesOctets_eq, stageOctets_eq, readOctets_eq, runningOctets_eq]
  simp only [statusFields, zeroOctets_one, List.flatMap_cons, List.flatMap_nil, List.append_assoc, List.nil_append]

theorem programs_length (l : List (Nat × ProgramState)) : (l.flatMap programOctets).length = 4 * l.length := by
  have hone : ∀ g, (programOctets g).length = 4 := fun _ => rfl
  simp [List.length_flatMap, hone, Nat.mul_comm]

theorem statusOctets_length (r : StatusReport) : (statusOctets r).length = 58 + 4 * r.programs.length := by
  have hstage : (r.stage.elim (u8Octets 0) (fun x => nameOctets (.plateState x.2))).length = 1 := by
    cases r.stage <;> rfl
  have hread : (r.read.elim (u8Octets 0) (fun d => nameOctets (.readKind d.kind))).length = 1 := by
    cases r.read <;> rfl
  rw [statusOctets_eq, List.length_append, programs_length]
  simp [statusFields, hstage, hread, stepOctets_length]

theorem holdsFields_status (r : StatusReport) :
    HoldsFields (bodyOctets (.status r)) (58 + 4 * r.programs.length) (statusFields r) :=
  .of_contiguous (statusFields_contiguous r) (statusOctets_eq r) (statusOctets_length r)

theorem holdsField_statusProgram {r : StatusReport} {k : Nat} {x : Nat × ProgramState} (hx : r.programs[k]? = some x) :
    HoldsField (bodyOctets (.status r)) (58 + 4 * k) (programOctets x) := by
  refine .of_flatMap (n := 4) (before := (statusFields r).flatMap (·.2)) (rest := []) programOctets (fun _ => rfl)
    ?_ hx ?_
  · exact (statusOctets_eq r).trans (by rw [List.append_nil])
  · have hlength := congrArg List.length (statusOctets_eq r)
    have hprograms : (r.programs.flatMap programOctets).length = 4 * r.programs.length := programs_length r.programs
    rw [List.length_append, statusOctets_length, hprograms] at hlength
    omega

theorem statusOctets_front (r : StatusReport) :
    (statusOctets r).take 9 = identityOctets ++ [.byte Config.revision] := by
  rw [statusOctets_eq]
  simp [statusFields, identityOctets, zeroOctets]

end Status

/-! ### What QUERY_STATUS reports (09 R212) -/

theorem noticeHeld_eq (p : Port) (r : Option Plate) :
    (match r with
      | some pl => decide (pl.handlerPort = p) && pl.noticePending.isSome
      | none => false) = r.any (fun pl => decide (pl.handlerPort = p ∧ pl.noticePending ≠ none)) := by
  rcases r with _ | pl
  · rfl
  · cases hn : pl.noticePending <;> simp [hn]

/-- Settles O57: the settings and window requests, the report, and its layout. -/
theorem windowSettingsPreviewStatus : Obligations.WindowSettingsPreviewStatus := by
  unfold Obligations.WindowSettingsPreviewStatus
  refine ⟨fun s p m rest => ?_, fun r => ?_⟩
  · intro u
    refine ⟨fun base limit h => ?_, fun h => ?_, fun discard retry auto step sat floor offset h => ?_,
      fun on h => ?_, fun h => ?_⟩
    · intro b l
      have hb : min base 31 = b := by simp only [b]; split <;> omega
      have hl : min limit 31 = l := by simp only [l]; split <;> omega
      refine (exec_command_of_asks (r := .setWindow base limit) h).trans ?_
      simp [State.serve, State.setWindow, hb, hl, u]
    · refine (exec_command_of_asks (r := .readSettings) h).trans ?_
      rw [State.serve, State.taken_settings]
    · exact ⟨clampSettings discard retry auto step sat floor offset,
        exec_command_of_asks (r := .writeSettings discard retry auto step sat floor offset) h, rfl, rfl, rfl, rfl, rfl,
        rfl, by simp [clampSettings, clampNat]⟩
    · refine (exec_command_of_asks (r := .setPreview on) h).trans ?_
      simp [State.serve, State.setPreview, u]
    · intro report
      refine ⟨(exec_command_of_asks (r := .queryStatus) h).trans ?_, statusOctets_front report⟩
      have hreport : u.statusReport p = report := by
        have hheld : (u.statusReport p).ownNotices = report.ownNotices := by
          simp only [State.statusReport, report, u, State.taken_rest, List.countP_eq_length_filter]
          exact congrArg List.length (List.filter_congr fun r _ => noticeHeld_eq p r)
        rcases hc : s.calContext with _ | k
        · simp [State.statusReport, report, u, State.calState, hc, List.countP_eq_length_filter, State.plate,
            State.running] at hheld ⊢
          exact hheld
        · cases hk : k.phase <;> simp [State.statusReport, report, u, State.calState, hc, hk,
            List.countP_eq_length_filter, State.plate, State.running] at hheld ⊢ <;> exact hheld
      rw [State.serve, hreport]
  · intro byte u8 u16 u32 name flag q
    have hfields := holdsFields_status r
    simp only [statusFields, u32Octets_eq] at hfields
    exact ⟨hfields, fun k x hx => holdsField_statusProgram hx⟩

end Sys2Proof.Machine
end

section
/-! A message accepted by the link, the bytes of a frame, and the payload of every outbound message. -/

namespace Sys2Proof.Machine

/-! ### MESSAGE_ACCEPTED (09 R195, R198, R202) -/

theorem exec_messageAccepted {s : State} {p : Port} {m : OutMessage} {q : PortState} (hup : (s.port p).link = .up)
    (h : (s.port p).acceptMessage = some (m, q)) : exec (.messageAccepted p) s =
      .next (s.fresh.serveFreed ((s.fresh.setPort p q).emit (.frame p (frameOf m))) p) := by
  change execMessageAccepted p s = _
  simp only [execMessageAccepted, if_pos hup, h]

section Accept

variable {q : PortState}

theorem PortState.acceptMessage_retry {r : RetryRefusal} {retry : List RetryRefusal} (hs : q.sending = .retryLater)
    (h : q.retry = r :: retry) :
    q.acceptMessage = some (retryReply r, { q with retry := retry, sending := .idle }) := by
  simp only [PortState.acceptMessage, hs, h]

variable (hs : q.sending = .entry)
include hs

theorem PortState.acceptMessage_message {m : OutMessage} {rest : List OutEntry} (h : q.outbound = .message m :: rest) :
    q.acceptMessage = some (m, { q with outbound := rest, sending := .idle }) := by
  simp only [PortState.acceptMessage, hs, h]

variable {e : StreamEntry} {m : OutMessage} {rest : List OutEntry} (h : q.outbound = .stream e :: rest)
include h

/-- The opening reply leaves, and the entry with it where it holds nothing else (08 R170). -/
theorem PortState.acceptMessage_reply (hm : e.reply = some m) : q.acceptMessage = some (m, { q with
    outbound := if e.count = 0 ∧ e.close = none then rest else .stream { e with reply := none } :: rest
    sending := .idle }) := by
  simp only [PortState.acceptMessage, hs, h, hm]

theorem PortState.acceptMessage_close (hreply : e.reply = none) (hcount : e.count = 0) (hm : e.close = some m) :
    q.acceptMessage = some (m, { q with outbound := rest, sending := .idle }) := by
  simp only [PortState.acceptMessage, hs, h, hreply, if_pos hcount, hm]

end Accept

/-! ### The frame of a message (10.2) -/

theorem u16Octets_eq (v : Nat) : u16Octets v = [.byte (BitVec.ofNat 8 v), .byte (BitVec.ofNat 8 (v / 256))] := rfl

theorem frameOf_bytes (m : OutMessage) :
    (frameOf m).bytes = messageOctets m ++ u32Octets (crc32 ((messageOctets m).map octetByte)).toNat := rfl

/-! ### The accession area and the port numbers (10 R214) -/

theorem accessionArea_eq (a : List Byte) : accessionArea a = ((a ++ List.replicate 16 0).take 16).map Octet.byte := by
  rw [List.take_append, List.take_replicate, List.map_append, List.map_replicate,
    Nat.min_eq_left (Nat.sub_le 16 a.length)]
  rfl

@[simp] theorem accessionArea_length (a : List Byte) : (accessionArea a).length = 16 := by
  rw [accessionArea_eq]
  simp

/-! ### Payloads that are their fields (10.5, 10.8) -/

/-- A payload made of fields one behind the other. -/
theorem HoldsFields.of_layout {p : List Octet} {n : Nat} {fields : List (Nat × List Octet)} (hc : Contiguous 0 fields)
    (hp : p = fields.flatMap (·.2)) (hn : (fields.flatMap (·.2)).length = n) : HoldsFields p n fields :=
  .of_contiguous (rest := []) hc (by rw [hp, List.append_nil]) (by rw [hp, hn])

/-! ### The plate record (10.6) -/

/-- The kind of a pending notice (10.6). -/
def PendingNotice.kind : PendingNotice → NoticeKind
  | .call _ => .call
  | .ret _ => .ret

/-- The fields of a plate record before its reservations, with their offsets (10.6). -/
def plateFields (slot : Nat) (pl : Plate) : List (Nat × List Octet) :=
  [(0, u8Octets slot), (1, nameOctets (.plateState (some pl.state))), (2, nameOctets (.sizeClass pl.sizeClass)),
    (3, nameOctets (.condition pl.condition)), (4, nameOctets (.carrier pl.carrier)),
    (5, nameOctets (.marginResult pl.marginResult)), (6, u8Octets (portNumber pl.handlerPort)),
    (7, u8Octets (portSetNumber pl.keeps)), (8, u8Octets pl.programCount),
    (9, nameOctets (.noticePending (pl.noticePending.map PendingNotice.kind))),
    (10, flagOctets pl.baseFog.isSome), (11, u8Octets pl.reservations.length), (12, u8Octets pl.accession.length),
    (13, u8Octets pl.note.length), (14, u16Octets (pl.baseFog.getD 0)), (16, u32Octets pl.budget),
    (20, u32Octets pl.spent), (24, u32Octets pl.reserved), (28, u32Octets pl.remainder)]

/-- A reservation entry of a plate record (10.6). -/
def reservationOctets (r : Reservation) : List Octet := u16Octets r.tag ++ zeroOctets 2 ++ u32Octets r.remaining

theorem plateFields_contiguous (slot : Nat) (pl : Plate) : Contiguous 0 (plateFields slot pl) := by
  simp [plateFields]

theorem plateFields_length (slot : Nat) (pl : Plate) : ((plateFields slot pl).flatMap (·.2)).length = 32 := by
  simp [plateFields]

theorem plateOctets_parts (slot : Nat) (pl : Plate) : plateOctets slot pl =
    u8Octets slot ++ nameOctets (.plateState (some pl.state)) ++ nameOctets (.sizeClass pl.sizeClass) ++
    nameOctets (.condition pl.condition) ++ nameOctets (.carrier pl.carrier) ++
    nameOctets (.marginResult pl.marginResult) ++ u8Octets (portNumber pl.handlerPort) ++
    u8Octets (portSetNumber pl.keeps) ++ u8Octets pl.programCount ++
    nameOctets (.noticePending (pl.noticePending.map PendingNotice.kind)) ++
    flagOctets pl.baseFog.isSome ++ u8Octets pl.reservations.length ++ u8Octets pl.accession.length ++
    u8Octets pl.note.length ++ u16Octets (pl.baseFog.getD 0) ++
    u32Octets pl.budget ++ u32Octets pl.spent ++ u32Octets pl.reserved ++ u32Octets pl.remainder ++
    pl.reservations.flatMap reservationOctets ++ pl.accession.map .byte ++ pl.note.map .byte := rfl

theorem plateOctets_eq (slot : Nat) (pl : Plate) : plateOctets slot pl = (plateFields slot pl).flatMap (·.2) ++
    (pl.reservations.flatMap reservationOctets ++ (pl.accession.map .byte ++ pl.note.map .byte)) := by
  simp only [plateOctets_parts, plateFields, List.flatMap_cons, List.flatMap_nil, List.append_assoc, List.nil_append]

theorem reservations_length (l : List Reservation) : (l.flatMap reservationOctets).length = 8 * l.length := by
  have hone : ∀ r, (reservationOctets r).length = 8 := fun _ => rfl
  simp [List.length_flatMap, hone, Nat.mul_comm]

theorem holdsFields_plate (slot : Nat) (pl : Plate) : HoldsFields (bodyOctets (.plate slot pl))
    (32 + 8 * pl.reservations.length + pl.accession.length + pl.note.length) (plateFields slot pl ++
      [(32 + 8 * pl.reservations.length, pl.accession.map .byte),
        (32 + 8 * pl.reservations.length + pl.accession.length, pl.note.map .byte)]) := by
  have hp := plateOctets_eq slot pl
  refine ⟨?_, fun f hf => ?_⟩
  · refine (congrArg List.length hp).trans ?_
    simp only [List.length_append, List.length_map, plateFields_length, reservations_length]
    omega
  · rcases List.mem_append.1 hf with hf | hf
    · exact HoldsField.of_contiguous (before := []) (plateFields_contiguous slot pl) hp f hf
    · refine HoldsField.of_contiguous (rest := []) (before := (plateFields slot pl).flatMap (·.2) ++
        pl.reservations.flatMap reservationOctets) ?_ ?_ f hf
      · rw [List.length_append, plateFields_length, reservations_length]
        simp
      · exact hp.trans (by simp)

theorem holdsField_reservation {slot : Nat} {pl : Plate} {k : Nat} {x : Reservation}
    (hx : pl.reservations[k]? = some x) :
    HoldsField (bodyOctets (.plate slot pl)) (32 + 8 * k) (reservationOctets x) :=
  .of_flatMap (n := 8) reservationOctets (fun _ => rfl) (plateOctets_eq slot pl) hx (by rw [plateFields_length])

/-! ### Tile data (10.7) -/

theorem codeOctets_length (cs : List (BitVec 16)) : (codeOctets cs).length = 2 * cs.length := by
  simp [codeOctets, List.length_flatMap, Nat.mul_comm]

/-- Codes stand behind the fields of a line, two bytes each (10.7). -/
theorem holdsFields_codes {p : List Octet} {n : Nat} {fields : List (Nat × List Octet)} {cs : List (BitVec 16)}
    (hc : Contiguous 0 fields) (hp : p = fields.flatMap (·.2) ++ codeOctets cs)
    (hn : (fields.flatMap (·.2)).length = n) : HoldsFields p (n + 2 * cs.length) fields ∧
      ∀ (k : Nat) (v : BitVec 16), cs[k]? = some v → HoldsField p (n + 2 * k) (u16Octets v.toNat) := by
  refine ⟨.of_contiguous hc hp (by rw [hp, List.length_append, hn, codeOctets_length]), fun k v hv => ?_⟩
  exact .of_flatMap (n := 2) (rest := []) (fun c : BitVec 16 => u16Octets c.toNat) (fun _ => rfl)
    (hp.trans (by rw [List.append_nil, codeOctets])) hv (by rw [hn])

/-- The fields of a tile statistics record, with their offsets in it (10.7). -/
def statsFields (x : TileStats) : List (Nat × List Octet) :=
  [(0, u32Octets x.normalCount), (4, u32Octets x.underCount), (8, u32Octets x.overCount), (12, u32Octets x.gapCount),
    (16, u32Octets x.negCount), (20, u32Octets x.ceilCount), (24, u16Octets (x.least.getD 0)),
    (26, u16Octets (x.greatest.getD 0)), (28, u16Octets (x.baseFog.getD 0)), (30, flagOctets x.least.isSome),
    (31, flagOctets x.baseFog.isSome), (32, x.rounding.elim (u8Octets 0) (fun v => nameOctets (.rounding v))),
    (33, x.mergeMode.elim (u8Octets 0) (fun v => nameOctets (.mergeMode v))), (34, u16Octets 0),
    (36, u32Octets (x.generation.getD 0)), (40, u32Octets x.dose)]

/-- The rounding mode of a statistics record, or zero (10.7). -/
def roundingOctets (r : Option RoundingMode) : List Octet :=
  match r with
  | some r => nameOctets (.rounding r)
  | none => zeroOctets 1

/-- The merge mode of a statistics record, or zero (10.7). -/
def mergeModeOctets (m : Option MergeMode) : List Octet :=
  match m with
  | some m => nameOctets (.mergeMode m)
  | none => zeroOctets 1

theorem statsOctets_parts (x : TileStats) : statsOctets x =
    u32Octets x.normalCount ++ u32Octets x.underCount ++ u32Octets x.overCount ++ u32Octets x.gapCount ++
    u32Octets x.negCount ++ u32Octets x.ceilCount ++ u16Octets (x.least.getD 0) ++ u16Octets (x.greatest.getD 0) ++
    u16Octets (x.baseFog.getD 0) ++ flagOctets x.least.isSome ++ flagOctets x.baseFog.isSome ++
    roundingOctets x.rounding ++ mergeModeOctets x.mergeMode ++ zeroOctets 2 ++ u32Octets (x.generation.getD 0) ++
    u32Octets x.dose := rfl

theorem zeroOctets_two : zeroOctets 2 = u16Octets 0 := rfl

theorem statsOctets_eq (x : TileStats) : statsOctets x = (statsFields x).flatMap (·.2) := by
  have hrounding : roundingOctets x.rounding = x.rounding.elim (u8Octets 0) (fun v => nameOctets (.rounding v)) := by
    cases x.rounding <;> rfl
  have hmode : mergeModeOctets x.mergeMode = x.mergeMode.elim (u8Octets 0) (fun v => nameOctets (.mergeMode v)) := by
    cases x.mergeMode <;> rfl
  rw [statsOctets_parts, hrounding, hmode]
  simp only [statsFields, zeroOctets_two, List.flatMap_cons, List.flatMap_nil, List.append_assoc, List.append_nil]

theorem statsFields_contiguous (x : TileStats) : Contiguous 0 (statsFields x) := by
  have hrounding : (x.rounding.elim (u8Octets 0) (fun v => nameOctets (.rounding v))).length = 1 := by
    cases x.rounding <;> rfl
  have hmode : (x.mergeMode.elim (u8Octets 0) (fun v => nameOctets (.mergeMode v))).length = 1 := by
    cases x.mergeMode <;> rfl
  simp [statsFields, hrounding, hmode]

/-- The fields of a closing record before its statistics, with their offsets (10.7). -/
def closeFields (r : CloseRecord) : List (Nat × List Octet) :=
  [(0, tileIdOctets r.tile), (4, u8Octets r.slot), (5, nameOctets (.closeOutcome r.outcome)),
    (6, flagOctets r.stats.isSome), (7, u8Octets r.accession.length), (8, u16Octets r.first),
    (10, u16Octets r.delivered), (12, accessionArea r.accession)]

/-- The statistics of a closing record, or zeros (10.7). -/
def closeStatsOctets (r : Option TileStats) : List Octet :=
  match r with
  | some t => statsOctets t
  | none => zeroOctets 44

theorem closeOctets_parts (r : CloseRecord) : bodyOctets (.close r) =
    tileIdOctets r.tile ++ u8Octets r.slot ++ nameOctets (.closeOutcome r.outcome) ++ flagOctets r.stats.isSome ++
    u8Octets r.accession.length ++ u16Octets r.first ++ u16Octets r.delivered ++ accessionArea r.accession ++
    closeStatsOctets r.stats := rfl

theorem closeOctets_eq (r : CloseRecord) :
    bodyOctets (.close r) = (closeFields r).flatMap (·.2) ++ closeStatsOctets r.stats := by
  rw [closeOctets_parts]
  simp only [closeFields, List.flatMap_cons, List.flatMap_nil, List.append_assoc, List.nil_append]

theorem closeFields_length (r : CloseRecord) : ((closeFields r).flatMap (·.2)).length = 28 := by simp [closeFields]

theorem closeStatsOctets_length (r : Option TileStats) : (closeStatsOctets r).length = 44 := by
  rcases r with _ | x
  · exact zeroOctets_length 44
  · have hrounding : (roundingOctets x.rounding).length = 1 := by cases x.rounding <;> rfl
    have hmode : (mergeModeOctets x.mergeMode).length = 1 := by cases x.mergeMode <;> rfl
    simp [closeStatsOctets, statsOctets_parts, hrounding, hmode]

theorem holdsFields_close (r : CloseRecord) : HoldsFields (bodyOctets (.close r)) 72 (closeFields r) := by
  refine .of_contiguous (by simp [closeFields]) (closeOctets_eq r) ?_
  rw [closeOctets_eq, List.length_append, closeFields_length, closeStatsOctets_length]

theorem holdsField_noStats {r : CloseRecord} (h : r.stats = none) :
    HoldsField (bodyOctets (.close r)) 28 (zeroOctets 44) :=
  .of_append (rest := []) ((closeOctets_eq r).trans (by rw [h, List.append_nil]; rfl)) (closeFields_length r)

theorem holdsField_stats {r : CloseRecord} {x : TileStats} (h : r.stats = some x) :
    ∀ f ∈ statsFields x, HoldsField (bodyOctets (.close r)) (28 + f.1) f.2 := fun f hf => by
  have hstats : HoldsField (statsOctets x) f.1 f.2 := HoldsField.of_contiguous (before := []) (rest := [])
    (statsFields_contiguous x) ((statsOctets_eq x).trans (by simp)) f hf
  rw [closeOctets_eq, h]
  exact hstats.append_left (by rw [closeFields_length])

/-! ### Notices (10.8) and the reply BUSY of a read (10.5) -/

theorem holdsFields_busy (st : Option TileState) (p : Option Port) : HoldsFields (bodyOctets (.busy st p)) 4
    [(0, flagOctets st.isSome), (1, st.elim (u8Octets 0) (fun t => nameOctets (.tileState t))),
      (2, flagOctets p.isSome), (3, p.elim (u8Octets 0) (fun p => u8Octets (portNumber p)))] := by
  rcases st with _ | st <;> rcases p with _ | p <;> exact .of_layout (by simp) rfl rfl

theorem holdsFields_callPlate (i : Nat) (sz : SizeClass) (cd : Condition) (ca : Bool) (a : List Byte) (t : Nat) :
    HoldsFields (bodyOctets (.callPlate i sz cd ca a t)) 24
      [(0, u8Octets i), (1, nameOctets (.sizeClass sz)), (2, nameOctets (.condition cd)), (3, nameOctets (.carrier ca)),
        (4, u8Octets a.length), (5, u8Octets 0), (6, u16Octets t), (8, accessionArea a)] := by
  refine .of_layout (by simp) ?_ (by simp)
  simp only [bodyOctets, zeroOctets_one, List.flatMap_cons, List.flatMap_nil, List.append_nil,
    List.append_assoc]

theorem holdsFields_returnPlate (i : Nat) (a : List Byte) (w : Nat) : HoldsFields (bodyOctets (.returnPlate i a w)) 20
    [(0, u8Octets i), (1, u8Octets a.length), (2, u8Octets w), (3, u8Octets 0), (4, accessionArea a)] := by
  refine .of_layout (by simp) ?_ (by simp)
  simp only [bodyOctets, zeroOctets_one, List.flatMap_cons, List.flatMap_nil, List.append_nil,
    List.append_assoc]

theorem holdsFields_callWithdrawn (i : Nat) (a : List Byte) : HoldsFields (bodyOctets (.callWithdrawn i a)) 20
    [(0, u8Octets i), (1, u8Octets a.length), (2, u16Octets 0), (4, accessionArea a)] := by
  refine .of_layout (by simp) ?_ (by simp)
  simp only [bodyOctets, zeroOctets_two, List.flatMap_cons, List.flatMap_nil, List.append_nil,
    List.append_assoc]

theorem holdsFields_regDone (i : Nat) (a : List Byte) (o : RegOutcome) (f : Option Nat) (n d : Nat) :
    HoldsFields (bodyOctets (.regDone i a o f n d)) 28
      [(0, u8Octets i), (1, nameOctets (.regOutcome o)), (2, flagOctets f.isSome), (3, u8Octets a.length),
        (4, u16Octets (f.getD 0)), (6, u16Octets n), (8, u32Octets d), (12, accessionArea a)] := by
  refine .of_layout (by simp) ?_ (by simp)
  simp only [bodyOctets, List.flatMap_cons, List.flatMap_nil, List.append_nil,
    List.append_assoc]

theorem holdsFields_calDone (o : CalOutcome) (g t l w : Nat) (dk c wv : Option Nat) (least : Option (Nat × Nat)) :
    HoldsFields (bodyOctets (.calDone o g t l w dk c wv least)) 28
      [(0, nameOctets (.calOutcome o)), (1, u8Octets l), (2, flagOctets dk.isSome), (3, flagOctets c.isSome),
        (4, flagOctets wv.isSome), (5, flagOctets least.isSome), (6, u16Octets w), (8, u32Octets t), (12, u32Octets g),
        (16, u16Octets (dk.getD 0)), (18, u16Octets (c.getD 0)), (20, u16Octets (wv.getD 0)),
        (22, u16Octets (least.elim 0 (·.1))), (24, u16Octets (least.elim 0 (·.2))), (26, u16Octets 0)] := by
  have hw : (least.getD (0, 0)).1 = least.elim 0 (·.1) := by cases least <;> rfl
  have hcolumn : (least.getD (0, 0)).2 = least.elim 0 (·.2) := by cases least <;> rfl
  refine .of_layout (by simp) ?_ (by simp)
  simp only [bodyOctets, hw, hcolumn, zeroOctets_two, List.flatMap_cons, List.flatMap_nil, List.append_nil,
    List.append_assoc]

theorem holdsFields_tileReady (t : TileId) (i : Nat) (a : List Byte) (w h : Nat) (f : EntryFlag) (d : Nat) :
    HoldsFields (bodyOctets (.tileReady t i a w h f d)) 32
      [(0, tileIdOctets t), (4, u8Octets i), (5, nameOctets (.entryFlag f)), (6, u8Octets a.length), (7, u8Octets 0),
        (8, u16Octets w), (10, u16Octets h), (12, u16Octets d), (14, u16Octets 0), (16, accessionArea a)] := by
  refine .of_layout (by simp) ?_ (by simp)
  simp only [bodyOctets, zeroOctets_one, zeroOctets_two, List.flatMap_cons, List.flatMap_nil, List.append_nil,
    List.append_assoc]

theorem holdsFields_programDone (t i : Nat) (o : Option ProgramOutcome) (done residue : Nat) (f : Option (Nat × Nat))
    (rf : Option Nat) (charged released : Nat) (g : Option Nat) :
    HoldsFields (bodyOctets (.programDone t i o done residue f rf charged released g)) 28
      [(0, u16Octets t), (2, u8Octets i), (3, o.elim (u8Octets 0) (fun v => nameOctets (.programOutcome v))),
        (4, u8Octets done), (5, u8Octets residue), (6, flagOctets f.isSome), (7, flagOctets rf.isSome),
        (8, flagOctets g.isSome), (9, u8Octets 0), (10, u16Octets (f.elim 0 (·.1))), (12, u16Octets (rf.getD 0)),
        (14, u16Octets (f.elim 0 (·.2))), (16, u32Octets charged), (20, u32Octets released),
        (24, u32Octets (g.getD 0))] := by
  have htile : (f.getD (0, 0)).1 = f.elim 0 (·.1) := by cases f <;> rfl
  have hheight : (f.getD (0, 0)).2 = f.elim 0 (·.2) := by cases f <;> rfl
  have houtcome : (o.elim (u8Octets 0) (fun v => nameOctets (.programOutcome v))).length = 1 := by cases o <;> rfl
  refine .of_layout (by simp [houtcome]) ?_ (by simp [houtcome])
  cases o <;> simp only [bodyOctets, htile, hheight, zeroOctets_one, Option.elim_none, Option.elim_some,
    List.flatMap_cons, List.flatMap_nil, List.append_nil, List.append_assoc]

/-- Settles O19: the message that leaves, its frame, and the layout of every payload. -/
theorem acceptedMessageLeaves : Obligations.AcceptedMessageLeaves := by
  unfold Obligations.AcceptedMessageLeaves
  refine ⟨fun s p hup => ⟨fun r retry hs h => ?_, fun m rest hs h => ?_, fun e m rest hs h hm hmore => ?_,
    fun e m rest hs h hm hcount hclose => ?_, fun e m rest hs h hreply hcount hm => ?_⟩, fun m => ?_, ?_⟩
  · exact exec_messageAccepted hup (PortState.acceptMessage_retry hs h)
  · exact exec_messageAccepted hup (PortState.acceptMessage_message hs h)
  · have hstays : ¬ (e.count = 0 ∧ e.close = none) := by
      rintro ⟨hcount, hclose⟩
      rcases hmore with hmore | hmore
      · omega
      · exact hmore hclose
    rw [exec_messageAccepted hup (PortState.acceptMessage_reply hs h hm), if_neg hstays]
  · rw [exec_messageAccepted hup (PortState.acceptMessage_reply hs h hm), if_pos ⟨hcount, hclose⟩]
  · exact exec_messageAccepted hup (PortState.acceptMessage_close hs h hreply hcount hm)
  · intro low n content check
    have hcontent : messageOctets m = content := by
      have htag : u16Octets m.tag.toNat = [low 0 m.tag.toNat, low 1 m.tag.toNat] := by simp [low, u16Octets_eq]
      have hlength : u16Octets (bodyOctets m.body).length = [low 0 n, low 1 n] := by simp [low, n, u16Octets_eq]
      rw [messageOctets, htag, hlength]
      rcases hst : m.status with _ | st <;> simp [content, hst, statusFieldOctets, nameOctets, zeroOctets]
    have hcheck : u32Octets check = [low 0 check, low 1 check, low 2 check, low 3 check] := by simp [low, u32Octets_eq]
    rw [frameOf_bytes, hcontent, ← hcheck]
  · intro byte u8 u16 u32 name flag ports port tile area
    have h8 : u8 = u8Octets := rfl
    have h16 : u16 = u16Octets := rfl
    have h32 : u32 = u32Octets := funext fun v => (u32Octets_eq v).symm
    have hname : name = nameOctets := rfl
    have hflag : flag = flagOctets := rfl
    have hports : ports = fun k => u8Octets (portSetNumber k) := rfl
    have hport : port = fun p => u8Octets (portNumber p) := by
      funext p
      cases p <;> rfl
    have htile : tile = tileIdOctets := rfl
    have harea : area = accessionArea := funext fun a => (accessionArea_eq a).symm
    simp only [h8, h16, h32, hname, hflag, hports, hport, htile, harea]
    refine ⟨rfl, fun i => .of_layout (by simp) rfl rfl, fun b s v r => .of_layout (by simp) rfl rfl,
      fun k => .of_layout (by simp) rfl rfl, fun k n f => .of_layout (by simp) rfl rfl,
      fun t e => .of_layout (by simp) rfl rfl, fun t o => .of_layout (by simp) rfl rfl,
      fun t l w => .of_layout (by simp) rfl rfl, fun n => .of_layout (by simp) rfl rfl,
      fun t w h => .of_layout (by simp) rfl rfl, fun st => .of_layout (by simp) rfl rfl,
      fun t w h st th k l => .of_layout (by simp) rfl rfl, fun b l => .of_layout (by simp) rfl rfl,
      fun f => .of_layout (by simp) rfl rfl, fun t => .of_layout (by simp) rfl rfl,
      fun v => .of_layout (by simp) rfl rfl, fun e r => .of_layout (by simp) rfl rfl, holdsFields_busy,
      fun slot pl => ?_, fun t y cs => holdsFields_codes (n := 8) (by simp) rfl rfl,
      fun t i y cs => holdsFields_codes (n := 10) (by simp) rfl rfl,
      fun r => ⟨holdsFields_close r, holdsField_noStats, fun x => holdsField_stats⟩,
      fun e c i => .of_layout (by simp) rfl rfl,
      holdsFields_callPlate, holdsFields_returnPlate, holdsFields_callWithdrawn, holdsFields_regDone,
      holdsFields_calDone, holdsFields_tileReady, holdsFields_programDone⟩
    · refine ⟨?_, fun k x => holdsField_reservation⟩
      have hnotice : (match pl.noticePending with
          | none => none
          | some (.call _) => some .call
          | some (.ret _) => some .ret) = pl.noticePending.map PendingNotice.kind := by
        rcases pl.noticePending with _ | _ | _ <;> rfl
      have hplate := holdsFields_plate slot pl
      rw [plateFields, ← hnotice] at hplate
      exact hplate

end Sys2Proof.Machine
end

section
/-! Malformed messages: what is malformed, how it is answered, and how payloads are read. -/

namespace Sys2Proof.Machine

/-! ### MALFORMED (09 R201) -/

section Malformed

variable {s : State} {p : Port} {m : Message} {rest : List Message} (hw : Waits s p m rest)
include hw

theorem exec_malformed_request (h : readMessage m = .malformedRequest) :
    exec (.malformed p) s = .next ((s.taken p rest).reply p m .malformed .empty) := by
  change execMalformed p s = _
  simp only [execMalformed, State.take_of_waits hw, h]

theorem exec_malformed_post (h : readMessage m = .malformedPost) :
    exec (.malformed p) s = .next ((s.taken p rest).place p (postErrorTo m .malformed 0)) := by
  change execMalformed p s = _
  simp only [execMalformed, State.take_of_waits hw, h]

theorem exec_malformed_discarded (h : readMessage m = .discarded) :
    exec (.malformed p) s = .next (s.taken p rest) := by
  change execMalformed p s = _
  simp only [execMalformed, State.take_of_waits hw, h]

end Malformed

/-! ### What is malformed (09 R201, 10 R215, R216) -/

section WellFormed

variable {m : Message}

/-- The message holds the code, the length, the reserved bytes and the status of a well-formed message of a code. -/
def WellFormed (m : Message) (c : Code) : Prop :=
  readCode m.code = some c ∧ lengthHolds c m.payload = true ∧ reservedHold c m.payload = true ∧ m.status = 0

theorem readRequest_isSome {c : Code} (hc : c ∈ requestCodes ∨ c ∈ postCodes) (p : List Octet) :
    ∃ r, readRequest c p = some r := by
  cases c
  case postError | callPlate | returnPlate | callWithdrawn | regDone | calDone | programDone | tileReady =>
    simp [requestCodes, postCodes] at hc
  all_goals exact ⟨_, rfl⟩

theorem readWellFormed_eq_some_iff (codes : List Code) (r : Request) : readWellFormed codes m = some r ↔
    ∃ c ∈ codes, WellFormed m c ∧ readRequest c m.payload = some r := by
  unfold readWellFormed WellFormed
  rcases hcode : readCode m.code with _ | c
  · simp
  · by_cases hc : c ∈ codes
    · simp [hc, and_assoc]
    · simp [hc]

theorem readWellFormed_eq_none_iff {codes : List Code} (hsome : ∀ c ∈ codes, ∃ r, readRequest c m.payload = some r) :
    readWellFormed codes m = none ↔ ∀ c ∈ codes, ¬ WellFormed m c := by
  constructor
  · intro hnone c hc hgood
    obtain ⟨r, hr⟩ := hsome c hc
    have := (readWellFormed_eq_some_iff codes r).2 ⟨c, hc, hgood, hr⟩
    rw [hnone] at this
    cases this
  · intro hno
    by_contra hsome'
    obtain ⟨r, hr⟩ := Option.ne_none_iff_exists'.1 hsome'
    obtain ⟨c, hc, hgood, -⟩ := (readWellFormed_eq_some_iff codes r).1 hr
    exact hno c hc hgood

theorem readMessage_of_req (hk : readKindByte m.kind = some .req) :
    (readMessage m = .malformedRequest ↔ readWellFormed requestCodes m = none) ∧
    ∀ r, readMessage m = .request r ↔ readWellFormed requestCodes m = some r := by
  unfold readMessage
  simp only [hk]
  cases readWellFormed requestCodes m <;> simp

theorem readMessage_of_post (hk : readKindByte m.kind = some .post) :
    (readMessage m = .malformedPost ↔ readWellFormed postCodes m = none) ∧
    ∀ r, readMessage m = .request r ↔ readWellFormed postCodes m = some r := by
  unfold readMessage
  simp only [hk]
  cases readWellFormed postCodes m <;> simp

theorem readMessage_discarded (hreq : readKindByte m.kind ≠ some .req) (hpost : readKindByte m.kind ≠ some .post) :
    readMessage m = .discarded := by
  unfold readMessage
  split
  next h => exact absurd h hreq
  next h => exact absurd h hpost
  next => rfl

end WellFormed

/-! ### Lengths and reserved bytes (10.3, 10.4, R216) -/

/-- The payload lengths of the codes whose length is fixed (10.3). -/
def fixedLengths : List (Code × Nat) :=
  [(.readPlate, 2), (.retirePlate, 2), (.keep, 2), (.unkeep, 2), (.releasePlate, 2), (.register, 2), (.platePlaced, 2),
    (.plateRemoved, 2), (.raiseBudget, 6), (.cancelProgram, 2), (.setWindow, 2), (.setPreview, 2), (.discardTile, 4),
    (.fetchTile, 6), (.calibrate, 8), (.openDrain, 12), (.writeSettings, 12), (.stopRead, 0), (.readSettings, 0),
    (.queryStatus, 0), (.portReset, 0)]

/-- The offset of the reserved byte of the codes that have one (10.3). -/
def reservedBytes : List (Code × Nat) :=
  [(.plateEnter, 5), (.fetchTile, 5), (.openDrain, 11), (.readPlate, 1), (.retirePlate, 1), (.keep, 1), (.unkeep, 1),
    (.releasePlate, 1), (.register, 1), (.platePlaced, 1), (.plateRemoved, 1), (.raiseBudget, 1), (.annotate, 1),
    (.setPreview, 1)]

theorem lengthHolds_fixed {p : List Octet} {c : Code} {n : Nat} (h : (c, n) ∈ fixedLengths) :
    lengthHolds c p = true ↔ p.length = n := by
  have hall : ∀ x ∈ fixedLengths, (lengthHolds x.1 p = true ↔ p.length = x.2) := by simp [fixedLengths, lengthHolds]
  exact hall (c, n) h

theorem lengthHolds_annotate (p : List Octet) : lengthHolds .annotate p = true ↔ 2 ≤ p.length ∧ p.length ≤ 66 := by
  simp [lengthHolds]

theorem lengthHolds_plateEnter (p : List Octet) :
    lengthHolds .plateEnter p = true ↔ 10 ≤ p.length ∧ p.length = 10 + u8At p 0 + u8At p 1 := by
  simp [lengthHolds]

theorem lengthHolds_submitProgram (p : List Octet) :
    lengthHolds .submitProgram p = true ↔ 12 ≤ p.length ∧ p.length = 12 + 6 * u8At p 5 + 12 * u8At p 6 := by
  simp [lengthHolds]

theorem reservedHold_iff (c : Code) (p : List Octet) :
    reservedHold c p = true ↔ ∀ i ∈ reservedOffsets c p, u8At p i = 0 := by
  simp [reservedHold, u8At, BitVec.toNat_eq]

theorem reservedHold_one {p : List Octet} {c : Code} {i : Nat} (h : (c, i) ∈ reservedBytes) :
    reservedHold c p = true ↔ u8At p i = 0 := by
  have hall : ∀ x ∈ reservedBytes, reservedOffsets x.1 p = [x.2] := by simp [reservedBytes, reservedOffsets]
  rw [reservedHold_iff, hall (c, i) h, List.forall_mem_singleton]

theorem bracketReserved_iff (p : List Octet) (k : Nat) : (∀ i ∈ bracketReserved p k, u8At p i = 0) ↔
    u8At p (12 + 6 * k + 1) = 0 ∧
      ∀ j, j < 4 → u8At p (12 + 6 * k) ≤ j → u8At p (12 + 6 * k + 2 + j) = 0 := by
  rw [bracketReserved, List.forall_mem_cons]
  refine and_congr_right fun _ => ⟨fun h j hj hcount => ?_, fun h i hi => ?_⟩
  · exact h _ (List.mem_map.2 ⟨j, List.mem_filter.2 ⟨List.mem_range.2 hj, decide_eq_true hcount⟩, rfl⟩)
  · obtain ⟨j, hj, rfl⟩ := List.mem_map.1 hi
    obtain ⟨hrange, hcount⟩ := List.mem_filter.1 hj
    exact h j (List.mem_range.1 hrange) (of_decide_eq_true hcount)

theorem reservedHold_submit (p : List Octet) : reservedHold .submitProgram p = true ↔ u8At p 7 = 0 ∧
    (∀ k, k < u8At p 5 → u8At p (12 + 6 * k + 1) = 0 ∧
      ∀ j, j < 4 → u8At p (12 + 6 * k) ≤ j → u8At p (12 + 6 * k + 2 + j) = 0) ∧
    (∀ k, k < u8At p 6 → u8At p (12 + 6 * u8At p 5 + 12 * k + 11) = 0) := by
  have hbrackets : (∀ i ∈ (List.range (u8At p 5)).flatMap (bracketReserved p), u8At p i = 0) ↔
      ∀ k, k < u8At p 5 → u8At p (12 + 6 * k + 1) = 0 ∧
        ∀ j, j < 4 → u8At p (12 + 6 * k) ≤ j → u8At p (12 + 6 * k + 2 + j) = 0 := by
    simp only [← bracketReserved_iff, List.mem_flatMap, List.mem_range]
    exact ⟨fun h k hk i hi => h i ⟨k, hk, hi⟩, fun h i ⟨k, hk, hi⟩ => h k hk i hi⟩
  rw [reservedHold_iff, reservedOffsets, List.forall_mem_cons, List.forall_mem_append, hbrackets]
  simp

/-! ### Numbers and named values (10 R214, R215) -/

theorem u16At_eq (p : List Octet) (i : Nat) : u16At p i = u8At p i + 256 * u8At p (i + 1) := by
  simp [u16At, u8At, ofLeBytes]

theorem u32At_eq (p : List Octet) (i : Nat) : u32At p i = u16At p i + 65536 * u16At p (i + 2) := by
  have hthree : i + 2 + 1 = i + 3 := rfl
  simp only [u32At, u16At, ofLeBytes, hthree]
  omega

/-- A byte at a place of named values is read as the value it names, where all values are tried (10 R215). -/
theorem readsName_readName {α : Type} {wrap : α → Name} {vals : List α} (hinj : ∀ v w, wrap v = wrap w → v = w)
    (hall : ∀ v, v ∈ vals) (o : Octet) : ReadsName wrap o (readName wrap vals o) := by
  refine ⟨fun v ho => ?_, fun ho => by rw [ho]; rfl, fun b ho => ⟨fun v hv => ?_, fun hnone v => ?_⟩⟩
  · have hfind : vals.find? (fun w => decide (wrap w = wrap v)) = some v := by
      rcases hfound : vals.find? (fun w => decide (wrap w = wrap v)) with _ | w
      · exact absurd (decide_eq_true rfl) (List.find?_eq_none.1 hfound v (hall v))
      · exact congrArg some (hinj w v (of_decide_eq_true
          (List.find?_some (p := fun w => decide (wrap w = wrap v)) hfound)))
    simp only [ho, readName, hfind]
  · rw [ho] at hv
    exact of_decide_eq_true (List.find?_some (p := fun v => decide (Config.nameByte (wrap v) = b)) hv)
  · rw [ho] at hnone
    simpa using List.find?_eq_none.1 hnone v (hall v)

/-- Settles O18: the answer to a malformed message, what is malformed, and how payloads are read. -/
theorem malformedMessageIsAnswered : Obligations.MalformedMessageIsAnswered := by
  unfold Obligations.MalformedMessageIsAnswered
  refine ⟨fun s p m rest hw => ⟨exec_malformed_request hw, exec_malformed_post hw, exec_malformed_discarded hw⟩,
    fun m => ?_, fun p => ?_⟩
  · intro good
    refine ⟨fun hk => ?_, fun hk => ?_, readMessage_discarded⟩
    · obtain ⟨hmal, hreq⟩ := readMessage_of_req hk
      exact ⟨hmal.trans (readWellFormed_eq_none_iff fun c hc => readRequest_isSome (.inl hc) _),
        fun r => (hreq r).trans (readWellFormed_eq_some_iff _ _)⟩
    · obtain ⟨hmal, hreq⟩ := readMessage_of_post hk
      exact ⟨hmal.trans (readWellFormed_eq_none_iff fun c hc => readRequest_isSome (.inr hc) _),
        fun r => (hreq r).trans (readWellFormed_eq_some_iff _ _)⟩
  · intro byte word signed bytes
    have hword : u16At p = word := funext fun i => u16At_eq p i
    have hlong : ∀ i, u32At p i = word i + 65536 * word (i + 2) := fun i => by rw [u32At_eq, hword]
    refine ⟨fun c n => lengthHolds_fixed, lengthHolds_annotate p, lengthHolds_plateEnter p, lengthHolds_submitProgram p,
      fun c i => reservedHold_one, ?_, reservedHold_submit p, ?_, ?_, ?_, ?_, ?_, rfl, ?_, rfl, rfl, rfl, rfl, rfl, rfl, rfl, rfl, rfl, ?_, rfl, rfl, rfl, rfl, rfl, ?_, ?_⟩
    · simp [reservedHold, reservedOffsets]
    · simp only [readRequest, hlong]
      rfl
    · simp only [readRequest, hword]
    · simp only [readRequest, hlong, hword]
    · simp only [readRequest, tileIdAt, hword]
      rfl
    · simp only [readRequest, tileIdAt, hword]
      rfl
    · simp only [readRequest, hword]
      rfl
    · simp only [readRequest, tileIdAt, hword]
    · exact ⟨readEnter p, rfl, rfl, rfl, hlong 6,
        readsName_readName (fun _ _ h => Name.sizeClass.inj h) (fun v => by cases v <;> decide) _,
        readsName_readName (fun _ _ h => Name.condition.inj h) (fun v => by cases v <;> decide) _,
        readsName_readName (fun _ _ h => Name.carrier.inj h) (by decide) _⟩
    · refine ⟨readSubmit p, rfl, rfl,
        readsName_readName (fun _ _ h => Name.rounding.inj h) (fun v => by cases v <;> decide) _,
        readsName_readName (fun _ _ h => Name.mergeMode.inj h) (fun v => by cases v <;> decide) _,
        readsName_readName (fun _ _ h => Name.marking.inj h) (by decide) _,
        readsName_readName (fun _ _ h => Name.baseSubtraction.inj h) (by decide) _, rfl, rfl, congrFun hword 8,
        congrFun hword 10, rfl, ?_⟩
      simp only [readSubmit, readTileDesc, hword]
      rfl

end Sys2Proof.Machine
end
